-- ==== Sys2Proof/Word.lean ====
section
/-! DEFINITION. The words of the Dorjap 2460: bytes, 16-bit words, permille readings, and the few plain number
helpers that every chapter's arithmetic words name (spec/00_scope.md, "Arithmetic words"). -/

namespace Sys2Proof

/-- A byte is 8 bits (spec/00_scope.md, Numbers). -/
abbrev Byte := BitVec 8

/-- A 16-bit word: a frame header, a CRC. -/
abbrev Word16 := BitVec 16

/-- A reading of 0–1000 permille of an analog input's span (R117). -/
abbrev Permille := Fin 1001

/-- "clamped to a–b" (spec/00_scope.md) for a signed quantity. -/
def clampInt (lo hi x : Int) : Int := max lo (min hi x)

/-- "clamped to 0–b" of a signed quantity, as the plain number it then is. -/
def clampNat (hi : Nat) (x : Int) : Nat := min hi x.toNat

end Sys2Proof
end

