-- ==== Sys2Proof/Syntax.lean ====
section
/-! DEFINITION. The commands of the block: one constructor per row of spec/opcode_table.json. The table gives its
rows no operand bits; an operand here is what the row's event brings from outside the part (a strap, an image, a
frame, a reading, a line level) or which of several like things it is about (a slot, a channel, an arm unit). -/

namespace Sys2Proof

/-- The two arm units a station can carry (spec/07_brush_arms.md). -/
inductive ArmUnit where
  | a
  | b
deriving DecidableEq, Repr

/-- The six cyclic topics, in the order of the image's period bytes 196–201 (R46, R209). -/
inductive CyclicTopic where
  | pace
  | travel
  | operator
  | armA
  | armB
  | water
deriving DecidableEq, Repr

/-- The commands: one constructor per row of spec/opcode_table.json. -/
inductive Instr where
  /-- STATION_RESET (R195): the reset ends and the four address straps are sampled. -/
  | stationReset (straps : BitVec 4)
  /-- IMAGE_READ_FAILED (R196): the image memory fails to answer. -/
  | imageReadFailed
  /-- IMAGE_READ_COMPLETE (R196): the 1024 bytes, and the first conversions of AI0–AI3, which an entry to JOINING
  takes at this same instant (R117, R201). -/
  | imageReadComplete (image : Vector Byte 1024) (first : Vector Permille 4)
  /-- JOIN_TIMER_EXPIRY (R203). -/
  | joinTimerExpiry
  /-- CONFIG_BAD_TIMER_EXPIRY (R60). -/
  | configBadTimerExpiry
  /-- IDLE_SEEN (R29): the eleventh recessive bit of a run. -/
  | idleSeen
  /-- FRAMING_ERROR (R31): a stop bit read dominant. -/
  | framingError
  /-- RECEIVE_FRAME_COMPLETE (R30): the 5 + L characters of the frame as read from the bus, CRC included. -/
  | receiveFrameComplete (chars : List Byte)
  /-- TRANSMIT_START (R36). -/
  | transmitStart
  /-- ARBITRATION_WON (R37). -/
  | arbitrationWon
  /-- ARBITRATION_LOST (R38). -/
  | arbitrationLost
  /-- TRANSMIT_FAULT (R37, R39). -/
  | transmitFault
  /-- ABORT_END (R39). -/
  | abortEnd
  /-- TRANSMIT_SUCCESS (R40). -/
  | transmitSuccess
  /-- MUTE_TIMER_EXPIRY (R42). -/
  | muteTimerExpiry
  /-- FILTER_PASS (R5). -/
  | filterPass
  /-- STORE_COMPLETE (R11). -/
  | storeComplete
  /-- SLOT_DEADLINE (R15) of one peer slot. -/
  | slotDeadline (slot : Fin 32)
  /-- EVENT_HANDLER_TAKE (R23). -/
  | eventHandlerTake
  /-- PERIOD_TIMER_EXPIRY (R54) of one cyclic topic. -/
  | periodTimerExpiry (topic : CyclicTopic)
  /-- DRIVE_PERIOD_EXPIRY (R81). -/
  | drivePeriodExpiry
  /-- PULSE_EDGE (R108, R111): a rising edge on a pulse input. -/
  | pulseEdge (ch : Fin 6)
  /-- MISSING_DEADLINE (R112) of one pulse channel. -/
  | missingDeadline (ch : Fin 6)
  /-- STOP_DEADLINE (R113) of one pulse channel. -/
  | stopDeadline (ch : Fin 6)
  /-- WATCH_DEADLINE (R114) of one pulse channel. -/
  | watchDeadline (ch : Fin 6)
  /-- ANALOG_CONVERSION (R117): one input's conversion gives this reading. -/
  | analogConversion (ai : Fin 4) (reading : Permille)
  /-- SWITCH_SAMPLE (R120): one switch line is sampled; `low` when its contact is closed to ground. -/
  | switchSample (si : Fin 8) (low : Bool)
  /-- ARM_PERIOD_EXPIRY (R125). -/
  | armPeriodExpiry (unit : ArmUnit)
  /-- WAIT_TIME_COMPLETE (R136). -/
  | waitTimeComplete (unit : ArmUnit)
  /-- STEP_DEADLINE (R138). -/
  | stepDeadline (unit : ArmUnit)
  /-- LOAD_WINDOW_EXPIRY (R144). -/
  | loadWindowExpiry (unit : ArmUnit)
  /-- WATER_PERIOD_EXPIRY (R150). -/
  | waterPeriodExpiry
  /-- CONSOLE_PERIOD_EXPIRY (R170). -/
  | consolePeriodExpiry
  /-- RESET_HOLD_TIMER_EXPIRY (R177). -/
  | resetHoldTimerExpiry
  /-- LAMP_DEADLINE (R178). -/
  | lampDeadline
  /-- FRAME_BEGINS (R29): a dominant bit that another station drives is read in WAITING. -/
  | frameBegins
  /-- RESET_ASSERTED (R195): the reset line is asserted or power is lost. -/
  | resetAsserted
deriving DecidableEq, Repr

end Sys2Proof
end

