-- ==== Sys2Proof/Config.lean ====
section
/-! DEFINITION. What one machine fixes and the spec leaves open. The spec states its numbers, so they stand with the
operations that use them; here stand the free values: constants with no body, of which no proof can know anything. -/

namespace Sys2Proof

/-- FREE VALUE (notes/assumptions/8.md). At the end of an abort that brings the tally to 128 or more, whether the MUTE
entry with its report to Safe Control (R41) is taken before the frame in hand returns to the Publication Scheduler
(R39, R57), asked once for each station time at which an abort ends. -/
opaque Config.muteBeforeReturn : Nat → Bool

/-- FREE VALUE (notes/assumptions/9.md). At a conversion of an angle input that both enters OUT_OF_RANGE (R139) and
meets the threshold of the wait step in progress (R136), whether the arm takes the fault first, asked once for each
station time at which such a conversion comes. -/
opaque Config.angleFaultFirst : Nat → Bool

/-- FREE VALUE (notes/assumptions/26.md). When a success frees an event place while the dropped count is above 0, whether the
NOTICE that is owed is built before an event asked for at the same instant takes the place (R58), asked once for each
station time at which such a place becomes free. -/
opaque Config.noticeFirst : Nat → Bool

end Sys2Proof
end

