-- ==== Sys2Proof/Machine/State.lean ====
section
/-! DEFINITION. The whole state of one Dorjap 2460 station, as plain data, and the state after reset. Every piece of
state that a chapter of spec/ names has its field here, or is computed from one field by the accessor that the docstring
names, so that nothing has two homes. Times in milliseconds are station milliseconds; times in microseconds are marked so. -/

namespace Sys2Proof.Machine

/-! ## Names of the spec -/

/-- The Start-Up Loader's station state (spec/11). -/
inductive StationState where
  | configuring
  | joining
  | operating
  | configFault
deriving DecidableEq, Repr

/-- Image validity (spec/11): none, valid, failed. -/
inductive Validity where
  | unread
  | valid
  | failed
deriving DecidableEq, Repr

/-- The fifteen check codes of R198, in their order. -/
inductive CheckCode where
  | address
  | noMemory
  | imageCrc
  | version
  | bitRate
  | dutySet
  | rule
  | period
  | ioAssignment
  | drive
  | water
  | console
  | arm
  | stepList
  | holdSet
deriving DecidableEq, Repr

/-- The three bit rates of R25. -/
inductive BitRate where
  | k125
  | k250
  | k500
deriving DecidableEq, Repr

/-- The duties, in the order DRIVE, ARM_A, ARM_B, WATER, CONSOLE of R69. -/
inductive Duty where
  | drive
  | armA
  | armB
  | water
  | console
deriving DecidableEq, Repr

/-- The duty set the image gives the station (R201). -/
structure DutySet where
  drive : Bool
  armA : Bool
  armB : Bool
  water : Bool
  console : Bool
deriving DecidableEq, Repr

/-- The eleven topics of R46. -/
inductive Topic where
  | halt
  | pace
  | travel
  | operator
  | armA
  | armB
  | water
  | notice
  | clear
  | query
  | report
deriving DecidableEq, Repr

/-- The labels of R2. -/
inductive Label where
  | plain
  | paceIn
  | travelIn
  | operatorIn
  | armIn
  | waterIn
  | haltIn
  | noticeIn
  | controlIn
deriving DecidableEq, Repr

/-- Where a matched frame goes (R2). -/
inductive Destination where
  | slot
  | queue
  | slotAndQueue
deriving DecidableEq, Repr

/-- OTHERS for a frame received from the link, SELF for an echo copy (R2, R33). -/
inductive Origin where
  | others
  | self
deriving DecidableEq, Repr

/-- The urgencies of R65, lowest first. -/
inductive Urgency where
  | normal
  | prompt
  | stop
deriving DecidableEq, Repr

/-- The PACE reasons of R49. -/
inductive Reason where
  | none
  | mode
  | armMoving
  | armYield
  | brushCapacity
  | brushLoad
  | waterCapacity
  | tankEmpty
  | armFault
  | wheelSensor
  | reverseLimit
  | stationSafe
  | peerLost
  | agedCreep
  | operatorLost
deriving DecidableEq, Repr

/-- A claim (R65): the highest speed a duty can stand, how quickly it needs it, and why. -/
structure Claim where
  ceiling : Nat
  urgency : Urgency
  reason : Reason
deriving DecidableEq, Repr

/-- The SAFE causes of R182, in the order of R190. -/
inductive Cause where
  | haltButton
  | peerHalt
  | linkMute
  | addressConflict
  | configBad
deriving DecidableEq, Repr

/-- The cause set (spec/10): each cause held at most once. -/
structure CauseSet where
  haltButton : Bool
  peerHalt : Bool
  linkMute : Bool
  addressConflict : Bool
  configBad : Bool
deriving DecidableEq, Repr

/-- The operator's modes (R50). -/
inductive Mode where
  | park
  | transport
  | sweep
deriving DecidableEq, Repr

/-- FORWARD or REVERSE (R50). -/
inductive Direction where
  | forward
  | reverse
deriving DecidableEq, Repr

/-- The operator's request for one arm (R50). -/
inductive ArmRequest where
  | hold
  | deploy
  | retract
deriving DecidableEq, Repr

/-- The arm positions (spec/00, Names). -/
inductive Position where
  | left
  | right
  | main
  | aux
deriving DecidableEq, Repr

/-- The drive states of R83. -/
inductive DriveState where
  | parked
  | standing
  | running
  | halting
  | held
deriving DecidableEq, Repr

/-- The arm states of R51. -/
inductive ArmState where
  | stowed
  | deploying
  | sweeping
  | yielding
  | yielded
  | resuming
  | retracting
  | fault
deriving DecidableEq, Repr

/-- The running list of an arm (R51). -/
inductive ListName where
  | none
  | deploy
  | retract
  | yield
  | resume
deriving DecidableEq, Repr

/-- Why an arm is in FAULT (R51). -/
inductive ArmFault where
  | none
  | stepTimeout
  | angleRange
  | brushSensor
  | stationSafe
  | notStowed
deriving DecidableEq, Repr

/-- The water states of R51. -/
inductive WaterState where
  | off
  | priming
  | spraying
  | idle
  | dry
  | fault
deriving DecidableEq, Repr

/-- The pulse functions of R107. -/
inductive PulseFn where
  | unused
  | wheel
  | engine
  | brushA
  | brushB
  | flow
deriving DecidableEq, Repr

/-- The analog functions of R117. -/
inductive AnalogFn where
  | unused
  | pedal
  | rateKnob
  | angleA
  | angleB
  | tank
deriving DecidableEq, Repr

/-- The switch functions of R120. -/
inductive SwitchFn where
  | unused
  | deflectA
  | deflectB
  | mode1
  | mode2
  | dir
  | haltButton
  | resetButton
  | deploy (p : Position)
  | retract (p : Position)
deriving DecidableEq, Repr

/-- The NOTICE codes of R52. -/
inductive NoticeCode where
  | tankLow
  | pedalRange
  | modeInvalid
  | releaseRefused
  | publicationDropped
  | sensorLost
  | armNotStowed
  | configBad
deriving DecidableEq, Repr

/-! ## The image's values (loaded at the entry to JOINING) -/

/-- One subscription rule, exactly as the image's 8 bytes hold it (R1, R2, R209): coded fields stay as their codes, so
that a rule not in use holds what the image held. -/
structure Rule where
  inUse : Bool
  origin : Origin
  required : Bool
  matchValue : BitVec 12
  mask : BitVec 12
  minLength : BitVec 4
  labelCode : BitVec 4
  destCode : BitVec 8
  ageSteps : BitVec 8
  slotNumber : BitVec 8
deriving DecidableEq, Repr

/-- A pulse channel's constants (R209): minimum spacing in µs, maximum window in 10 ms steps, and K. -/
structure PulseConst where
  minSpacing : Nat
  windowSteps : Nat
  k : Nat
deriving DecidableEq, Repr

/-- The drive block of the image (R105, R209). -/
structure DriveParams where
  transportMax : Nat
  sweepMax : Nat
  reverseMax : Nat
  creep : Nat
  agedCreep : Nat
  engineMin : Nat
  aUp : Nat
  aDown : Nat
  aPrompt : Nat
  aEmergency : Nat
  kff : Nat
  kp : Nat
  ki : Nat
  iLimit : Nat
  iMin : Nat
  iMax : Nat
  fwdLine : Option (Fin 8)
  revLine : Option (Fin 8)
  brakeLine : Option (Fin 16)
  wheelConst : PulseConst
  engineConst : PulseConst
deriving DecidableEq, Repr

/-- A spray valve's tie (R149). -/
inductive Tie where
  | always
  | arm (station : BitVec 4) (unit : ArmUnit)
deriving DecidableEq, Repr

/-- One spray valve entry (R149, R209). -/
structure SprayValve where
  line : Option (Fin 16)
  tie : Tie
deriving DecidableEq, Repr

/-- The water block of the image (R149, R209). -/
structure WaterParams where
  rateMax : Nat
  qMax : Nat
  sprayMin : Nat
  primeTime : Nat
  kq : Nat
  kw : Nat
  lowMark : Nat
  emptyMark : Nat
  dryForbidden : Bool
  pumpLine : Option (Fin 8)
  sprays : Vector SprayValve 4
  flowConst : PulseConst
deriving DecidableEq, Repr

/-- The console block of the image (spec/09, 9.1; R209). -/
structure ConsoleParams where
  deadband : Nat
  rateMax : Nat
  haltNormallyClosed : Bool
  lampLine : Option (Fin 16)
deriving DecidableEq, Repr

/-- One step of a step list (R135–R137, R209). -/
inductive Step where
  | valve (line : Fin 4) (on : Bool)
  | brush (on : Bool)
  | waitAngle (below : Bool) (threshold : Nat)
  | waitTime (units : Nat)
  | waitDist (mm : Nat)
  | waitWater
  | waitBrush
deriving DecidableEq, Repr

/-- An arm block of the image with its four step lists (R122, R209). -/
structure ArmParams where
  position : Position
  brushLine : Option (Fin 8)
  sweepWidth : Nat
  yieldWidth : Nat
  baseRpm : Nat
  maxRpm : Nat
  slope : Nat
  kb : Nat
  kt : Nat
  stepTimeout : Nat
  stowLow : Nat
  stowHigh : Nat
  moveCeiling : Nat
  yieldCeiling : Nat
  lines : Vector (Option (Fin 16)) 4
  deploy : List Step
  retract : List Step
  yield : List Step
  resume : List Step
  brushConst : PulseConst
deriving DecidableEq, Repr

/-- What the duties and the Publication Scheduler read of the accepted image (R47, R201). Periods are in 10 ms steps, in
the order of `CyclicTopic`. -/
structure Params where
  periods : Vector Nat 6
  drive : DriveParams
  water : WaterParams
  console : ConsoleParams
  armA : ArmParams
  armB : ArmParams
deriving DecidableEq, Repr

/-- The hold set (R180): a level per valve line, VOn in bit n, and a duty per PWM line. -/
structure HoldSet where
  valves : BitVec 16
  pwm : Vector Nat 8
deriving DecidableEq, Repr

/-! ## The blocks -/

/-- The Start-Up Loader (spec/11). `joinDue` is the instant at which the running join timer expires. -/
structure Loader where
  station : StationState
  address : BitVec 4
  validity : Validity
  failedCheck : Option CheckCode
  attempts : Nat
  joinDue : Option Nat
  imageCrc : Option Word16
deriving DecidableEq, Repr

/-- The link state (R35). -/
inductive LinkState where
  | hunt
  | on
  | mute
deriving DecidableEq, Repr

/-- The receiver state (R29). -/
inductive Receiver where
  | hunt
  | waiting
  | inFrame
deriving DecidableEq, Repr

/-- The transmitter state (spec/02). -/
inductive Transmitter where
  | quiet
  | contend
  | send
  | abort
deriving DecidableEq, Repr

/-- The kind of a topic (R46) and of a transmit list entry (R53). -/
inductive Kind where
  | cyclic
  | event
deriving DecidableEq, Repr

/-- A transmit list entry (R53). Its payload length is the length of `payload`. `enqueued` is the time an event was
enqueued, none for a cyclic entry. -/
structure TxEntry where
  kind : Kind
  header : Word16
  seq : Byte
  payload : List Byte
  enqueued : Option Nat
deriving DecidableEq, Repr

/-- A frame of the receive holding queue (R33). Its payload length is the length of `payload`. -/
structure HeldFrame where
  origin : Origin
  header : Word16
  seq : Byte
  payload : List Byte
deriving DecidableEq, Repr

/-- The Link Controller (spec/02). `muteDue` is the instant (ms) at which the running MUTE timer expires; `abortDue` is
the instant (µs) at which the 12 bit times of the present abort end. -/
structure Link where
  state : LinkState
  receiver : Receiver
  transmitter : Transmitter
  inHand : Option TxEntry
  tally : Nat
  muteDue : Option Nat
  abortDue : Option Nat
  bitRate : Option BitRate
  holding : List HeldFrame
  crcFlag : Bool
  framingFlag : Bool
  shortFlag : Bool
  overrunFlag : Bool
  muteFlag : Bool
deriving DecidableEq, Repr

/-- The age of a slot that is not EMPTY (R9). -/
inductive Age where
  | fresh
  | aged
  | lost
deriving DecidableEq, Repr

/-- The record of a slot that is not EMPTY (R9). Label and required marking come from `rule`, source and received length
from `header`, stored length is the length of `payload`, and truncated is a received length above 12 (R10, R12). -/
structure SlotRecord where
  age : Age
  rule : Fin 24
  header : Word16
  seq : Byte
  payload : List Byte
  arrival : Nat
  deadline : Option Nat
deriving DecidableEq, Repr

/-- A peer slot (R9): EMPTY when it holds no record. -/
structure Slot where
  record : Option SlotRecord
  gap : Bool
deriving DecidableEq, Repr

/-- An event queue entry (R21). -/
structure EventEntry where
  label : Label
  header : Word16
  seq : Byte
  payload : List Byte
deriving DecidableEq, Repr

/-- The Rule Filter, Peer Picture and Event Queue (spec/01). `store` is the matching rule of the slot store in flight, none
while no pass is in flight. -/
structure Picture where
  table : Vector Rule 24
  store : Option (Fin 24)
  slots : Vector Slot 32
  events : List EventEntry
  shortPayload : Bool
  eventOverrun : Bool
deriving DecidableEq, Repr

/-- The Publication Scheduler (spec/03). Timers hold the instant at which they expire, none while stopped. `lastDropped` is
a topic number, 0 before any drop. `noticeDue` is the model's own: a place freed at this instant waits to see whether an event asked
for at the same instant takes it before the NOTICE owed (R58, notes/assumptions/26.md). -/
structure Publication where
  list : List TxEntry
  timers : Vector (Option Nat) 6
  nextSeq : Vector Byte 11
  lastUrgency : Urgency
  deferred : List TxEntry
  dropped : Nat
  lastDropped : Nat
  late : Bool
  droppedFlag : Bool
  configBadDue : Option Nat
  noticeDue : Bool
deriving DecidableEq, Repr

/-- The states of a pulse channel (R111–R114). -/
inductive ChannelState where
  | stopped
  | tracking
  | oneMissing
  | lost
deriving DecidableEq, Repr

/-- A pulse channel (spec/06). `value` is the value the last accepted edge gave; `lastEdge` is a station time in µs, of
which R108 reads the low 32 bits. -/
structure PulseChannel where
  fn : PulseFn
  state : ChannelState
  value : Nat
  lastEdge : Option Nat
  period : Option Nat
  recovery : Nat
deriving DecidableEq, Repr

/-- An analog input (R117, R118). `due` is when its next conversion falls due. -/
structure AnalogInput where
  fn : AnalogFn
  reading : Nat
  inRange : Bool
  run : Nat
  lastGood : Option Nat
  due : Nat
deriving DecidableEq, Repr

/-- A switch input (R120). `run` is its differing run in ms; `due` is when its next sample falls due. -/
structure SwitchInput where
  fn : SwitchFn
  level : Bool
  run : Nat
  due : Nat
deriving DecidableEq, Repr

/-- The Input Conditioner (spec/06). -/
structure Inputs where
  pulse : Vector PulseChannel 6
  distance : BitVec 32
  remainder : Nat
  analog : Vector AnalogInput 4
  switches : Vector SwitchInput 8
  sensorLost : Bool
deriving DecidableEq, Repr

/-- The pace engine's result (R71). -/
structure PaceResult where
  ceiling : Nat
  urgency : Urgency
  source : BitVec 4
  reason : Reason
deriving DecidableEq, Repr

/-- The drive duty (spec/05). `standstill` is the period expiry from which the standstill timer runs; `due` is the control
period timer; `expectSince` is the instant (µs) at which the WHEEL channel's input last changed to expecting motion. -/
structure Drive where
  state : DriveState
  direction : Direction
  mode : Mode
  v : Nat
  vm : Nat
  n : Nat
  a1 : Int
  d : Nat
  fwdDuty : Nat
  revDuty : Nat
  brakeOn : Bool
  standstill : Option Nat
  pace : PaceResult
  claim : Option Claim
  due : Option Nat
  expectSince : Option Nat
deriving DecidableEq, Repr

/-- What a WAIT_TIME or WAIT_DIST step measures from (spec/07). -/
inductive StepRecord where
  | none
  | time (start : Nat)
  | distance (start : Nat)
deriving DecidableEq, Repr

/-- The inputs an arm unit last read at step 1 of a period (R126) and uses between periods (R131, R142). -/
structure ArmInputs where
  heard : Bool
  mode : Mode
  request : ArmRequest
  vt : Nat
  direction : Option Direction
deriving DecidableEq, Repr

/-- An arm unit (spec/07). The current step is step `length − remaining + 1` of the running list. Timers hold the instant
they run from (`reverse`) or expire at (`deadline`, `loadDue`, `due`); `expectSince` is as in `Drive`. -/
structure Arm where
  state : ArmState
  list : ListName
  remaining : Nat
  deadline : Option Nat
  record : StepRecord
  engaged : Bool
  brushOnRun : Bool
  target : Nat
  trim : Int
  pwm : Nat
  load : Nat
  loadDue : Option Nat
  reverse : Option Nat
  deflectOff : Option Nat
  levels : Vector Bool 4
  cause : ArmFault
  claim : Option Claim
  inputs : ArmInputs
  due : Option Nat
  expectSince : Option Nat
deriving DecidableEq, Repr

/-- The water duty (spec/08). `tankBelow` is the tank-low state BELOW. -/
structure Water where
  state : WaterState
  rate : Nat
  width : Nat
  speed : Nat
  active : Bool
  q : Nat
  saturated : Bool
  trim : Int
  pump : Nat
  priming : Option Nat
  dry : Bool
  tankBelow : Bool
  tank : Nat
  valves : Vector Bool 4
  claim : Option Claim
  due : Option Nat
  expectSince : Option Nat
deriving DecidableEq, Repr

/-- The console's arm requests, one per position (R174). -/
structure ArmRequests where
  left : ArmRequest
  right : ArmRequest
  main : ArmRequest
  aux : ArmRequest
deriving DecidableEq, Repr

/-- The console duty (spec/09). `resetHold` is the instant the reset hold timer runs from. -/
structure Console where
  mode : Mode
  modeInvalid : Bool
  direction : Direction
  pedal : Nat
  rate : Nat
  requests : ArmRequests
  resetHold : Option Nat
  lampDeadline : Option Nat
  claim : Option Claim
  due : Option Nat
deriving DecidableEq, Repr

/-- Safe Control (spec/10). The SAFE flag is set exactly while the cause set is not empty, so it is `State.isSafe`. -/
structure SafeControl where
  causes : CauseSet
  hold : HoldSet
deriving DecidableEq, Repr

/-- One station. `held` says that the reset line is asserted or power is coming up (R195). `micros` is the one time base:
microseconds since station reset; the 32-bit microsecond count of R108 is its low 32 bits (`State.usCount`) and the
station milliseconds are a thousandth of it (`State.ms`). `pending` is the queue of waiting commands, first in, first out. -/
structure State where
  held : Bool
  micros : Nat
  loader : Loader
  duties : DutySet
  params : Params
  link : Link
  picture : Picture
  pub : Publication
  inputs : Inputs
  drive : Drive
  armA : Arm
  armB : Arm
  water : Water
  console : Console
  safe : SafeControl
  pending : List Instr
deriving DecidableEq, Repr

/-- Why a command faults. There is no constructor: the spec describes no event that stops the part, and an event that is
not possible in a state leaves it alone (R29; notes/assumptions/2.md). -/
inductive Fault
deriving DecidableEq, Repr

/-- Why a command is refused. -/
inductive Refusal where
  /-- Raised only by an arm of `exec` for a command that has no meaning yet; no arm does. Safe: the model stops. -/
  | notModelled (mnemonic : String)
deriving DecidableEq, Repr

/-! ## Reset values -/

namespace State

/-- A pulse constant before any image is loaded; no channel has a function then (R121). -/
def noConst : PulseConst := ⟨0, 0, 0⟩

/-- A rule of the table at station reset: not in use (R1); its other fields are zero (notes/assumptions/3.md). -/
def noRule : Rule := ⟨false, .others, false, 0, 0, 0, 0, 0, 0, 0⟩

/-- An arm block before any image is loaded; no arm is present then. -/
def noArmParams : ArmParams :=
  ⟨.left, none, 0, 0, 0, 0, 0, 0, 0, 0, 0, 0, 0, 0, Vector.replicate 4 none, [], [], [], [], noConst⟩

/-- The image's values before any image is loaded (notes/assumptions/3.md): no duty is present to read them. -/
def noParams : Params where
  periods := Vector.replicate 6 0
  drive := ⟨0, 0, 0, 0, 0, 0, 0, 0, 0, 0, 0, 0, 0, 0, 0, 0, none, none, none, noConst, noConst⟩
  water := ⟨0, 0, 0, 0, 0, 0, 0, 0, false, none, Vector.replicate 4 ⟨none, .always⟩, noConst⟩
  console := ⟨0, 0, false, none⟩
  armA := noArmParams
  armB := noArmParams

/-- The built-in all-off set (R180). -/
def allOff : HoldSet := ⟨0, Vector.replicate 8 0⟩

/-- The Link Controller at station reset (R45). -/
def resetLink : Link where
  state := .hunt
  receiver := .hunt
  transmitter := .quiet
  inHand := none
  tally := 0
  muteDue := none
  abortDue := none
  bitRate := none
  holding := []
  crcFlag := false
  framingFlag := false
  shortFlag := false
  overrunFlag := false
  muteFlag := false

/-- The picture at station reset (R1, R9, R20, R21). -/
def resetPicture : Picture where
  table := Vector.replicate 24 noRule
  store := none
  slots := Vector.replicate 32 ⟨none, false⟩
  events := []
  shortPayload := false
  eventOverrun := false

/-- The Publication Scheduler at station reset (R64). -/
def resetPub : Publication where
  list := []
  timers := Vector.replicate 6 none
  nextSeq := Vector.replicate 11 0
  lastUrgency := .normal
  deferred := []
  dropped := 0
  lastDropped := 0
  late := false
  droppedFlag := false
  configBadDue := none
  noticeDue := false

/-- The Input Conditioner at station reset (R121). -/
def resetInputs : Inputs where
  pulse := Vector.replicate 6 ⟨.unused, .stopped, 0, none, none, 0⟩
  distance := 0
  remainder := 0
  analog := Vector.replicate 4 ⟨.unused, 0, true, 0, none, 0⟩
  switches := Vector.replicate 8 ⟨.unused, false, 0, 0⟩
  sensorLost := false

/-- The drive at station reset (R71, R106); the pace result names the station's own address. -/
def resetDrive (address : BitVec 4) : Drive where
  state := .parked
  direction := .forward
  mode := .park
  v := 0
  vm := 0
  n := 0
  a1 := 0
  d := 0
  fwdDuty := 0
  revDuty := 0
  brakeOn := false
  standstill := none
  pace := ⟨0, .normal, address, .none⟩
  claim := none
  due := none
  expectSince := none

/-- An arm unit at station reset (R124, R148). -/
def resetArm : Arm where
  state := .stowed
  list := .none
  remaining := 0
  deadline := none
  record := .none
  engaged := false
  brushOnRun := false
  target := 0
  trim := 0
  pwm := 0
  load := 100
  loadDue := none
  reverse := none
  deflectOff := none
  levels := Vector.replicate 4 false
  cause := .none
  claim := none
  inputs := ⟨false, .park, .hold, 0, none⟩
  due := none
  expectSince := none

/-- The water duty at station reset (R169). -/
def resetWater : Water where
  state := .off
  rate := 0
  width := 0
  speed := 0
  active := false
  q := 0
  saturated := false
  trim := 0
  pump := 0
  priming := none
  dry := false
  tankBelow := false
  tank := 0
  valves := Vector.replicate 4 false
  claim := none
  due := none
  expectSince := none

/-- The console duty at station reset (R179). -/
def resetConsole : Console where
  mode := .park
  modeInvalid := false
  direction := .forward
  pedal := 0
  rate := 0
  requests := ⟨.hold, .hold, .hold, .hold⟩
  resetHold := none
  lampDeadline := none
  claim := none
  due := none

/-- Every block at its station reset value (R195), the station held in reset or not, with its address. -/
def atReset (held : Bool) (address : BitVec 4) : State where
  held := held
  micros := 0
  loader := ⟨.configuring, address, .unread, none, 0, none, none⟩
  duties := ⟨false, false, false, false, false⟩
  params := noParams
  link := resetLink
  picture := resetPicture
  pub := resetPub
  inputs := resetInputs
  drive := resetDrive address
  armA := resetArm
  armB := resetArm
  water := resetWater
  console := resetConsole
  safe := ⟨⟨false, false, false, false, false⟩, allOff⟩
  pending := []

/-- The machine at power-up, held in station reset (R195): every block at its station reset value, and the address straps
not yet sampled (the address field reads 0 until STATION_RESET samples them: notes/assumptions/3.md). -/
def reset : State := atReset true 0

/-! ## Updates of one block -/

/-- The state with its Start-Up Loader replaced. -/
def withLoader (s : State) (x : Loader) : State := { s with loader := x }

/-- The state with its Link Controller replaced. -/
def withLink (s : State) (x : Link) : State := { s with link := x }

/-- The state with its picture replaced. -/
def withPicture (s : State) (x : Picture) : State := { s with picture := x }

/-- The state with its Publication Scheduler replaced. -/
def withPub (s : State) (x : Publication) : State := { s with pub := x }

/-- The state with its Input Conditioner replaced. -/
def withInputs (s : State) (x : Inputs) : State := { s with inputs := x }

/-- The state with its drive duty replaced. -/
def withDrive (s : State) (x : Drive) : State := { s with drive := x }

/-- The state with its water duty replaced. -/
def withWater (s : State) (x : Water) : State := { s with water := x }

/-- The state with its console duty replaced. -/
def withConsole (s : State) (x : Console) : State := { s with console := x }

/-- The state with its Safe Control replaced. -/
def withSafe (s : State) (x : SafeControl) : State := { s with safe := x }

/-- One arm unit. -/
def arm (s : State) : ArmUnit → Arm
  | .a => s.armA
  | .b => s.armB

/-- The state with one arm unit replaced. -/
def withArm (s : State) (u : ArmUnit) (x : Arm) : State :=
  match u with
  | .a => { s with armA := x }
  | .b => { s with armB := x }

end State

end Sys2Proof.Machine
end

