-- ==== Sys2Proof/WellFormed.lean ====
section
/-! DEFINITION. Which commands can come at all. The operand types already keep straps, slots, channels, readings and
the image's size in range; what is left is that a completed frame has the 5 + L characters its own header declares
(R27, R30). A command that is not well formed spells no event of the part, and its meaning leaves the state alone
(notes/assumptions/2.md). -/

namespace Sys2Proof

/-- The payload length L that the second character of a frame declares (R27): its low 4 bits. -/
def declaredLength (chars : List Byte) : Nat := ((chars.getD 1 0).toNat) % 16

/-- A frame completes at character 5 + L (R27, R30). -/
def frameComplete (chars : List Byte) : Bool := chars.length == 5 + declaredLength chars

/-- A command that can come: every operand is in the range its row's event gives it. -/
def Instr.wellFormed : Instr → Bool
  | .receiveFrameComplete chars => frameComplete chars
  | .stationReset _ | .imageReadFailed | .imageReadComplete _ _ | .joinTimerExpiry | .configBadTimerExpiry
  | .idleSeen | .framingError | .transmitStart | .arbitrationWon | .arbitrationLost | .transmitFault | .abortEnd
  | .transmitSuccess | .muteTimerExpiry | .filterPass | .storeComplete | .slotDeadline _ | .eventHandlerTake
  | .periodTimerExpiry _ | .drivePeriodExpiry | .pulseEdge _ | .missingDeadline _ | .stopDeadline _
  | .watchDeadline _ | .analogConversion _ _ | .switchSample _ _ | .armPeriodExpiry _ | .waitTimeComplete _
  | .stepDeadline _ | .loadWindowExpiry _ | .waterPeriodExpiry | .consolePeriodExpiry | .resetHoldTimerExpiry
  | .lampDeadline | .frameBegins | .resetAsserted => true

end Sys2Proof
end

