-- ==== Sys2Proof/Machine/Formats.lean ====
section
/-! DEFINITION. The codes of R207, the frame header and CRC of R27, R28 and R206, and the byte order of R205. -/

namespace Sys2Proof.Machine

/-! ## Bytes -/

/-- A one-byte field. -/
def byteOf (n : Nat) : Byte := BitVec.ofNat 8 n

/-- A two-byte field, most significant byte first (R205). -/
def be16 (n : Nat) : List Byte := [byteOf (n / 256), byteOf n]

/-- A three-byte field, most significant byte first (R205). -/
def be24 (n : Nat) : List Byte := [byteOf (n / 65536), byteOf (n / 256), byteOf n]

/-- The byte at a place, 0 beyond the end. -/
def byteAt (bytes : List Byte) (i : Nat) : Nat := (bytes.getD i 0).toNat

/-- The two-byte field at a place, 0 when any of its bytes lies beyond the end (R19). -/
def wordAt (bytes : List Byte) (i : Nat) : Nat :=
  if i + 1 < bytes.length then byteAt bytes i * 256 + byteAt bytes (i + 1) else 0

/-- The three-byte field at a place, 0 when any of its bytes lies beyond the end (R19). -/
def longAt (bytes : List Byte) (i : Nat) : Nat :=
  if i + 2 < bytes.length then byteAt bytes i * 65536 + byteAt bytes (i + 1) * 256 + byteAt bytes (i + 2) else 0

/-- One bit of a Bool as a number. -/
def bit (b : Bool) (n : Nat) : Nat := if b then 2 ^ n else 0

/-! ## Codes (R207) -/

/-- Duty codes; NONE is 5. -/
def dutyCode : Option Duty → Nat
  | some .drive => 0
  | some .armA => 1
  | some .armB => 2
  | some .water => 3
  | some .console => 4
  | none => 5

def urgencyCode : Urgency → Nat
  | .normal => 0
  | .prompt => 1
  | .stop => 2

/-- A received urgency code; one not in the list is STOP (R74). -/
def urgencyOfCode : Nat → Urgency
  | 0 => .normal
  | 1 => .prompt
  | _ => .stop

def reasonCode : Reason → Nat
  | .none => 0
  | .mode => 1
  | .armMoving => 2
  | .armYield => 3
  | .brushCapacity => 4
  | .brushLoad => 5
  | .waterCapacity => 6
  | .tankEmpty => 7
  | .armFault => 8
  | .wheelSensor => 9
  | .reverseLimit => 10
  | .stationSafe => 11
  | .peerLost => 12
  | .agedCreep => 13
  | .operatorLost => 14

/-- A received reason code; one not in the list is NONE (R74). -/
def reasonOfCode : Nat → Reason
  | 1 => .mode
  | 2 => .armMoving
  | 3 => .armYield
  | 4 => .brushCapacity
  | 5 => .brushLoad
  | 6 => .waterCapacity
  | 7 => .tankEmpty
  | 8 => .armFault
  | 9 => .wheelSensor
  | 10 => .reverseLimit
  | 11 => .stationSafe
  | 12 => .peerLost
  | 13 => .agedCreep
  | 14 => .operatorLost
  | _ => .none

/-- HALT cause codes; PEER_HALT has none, since it asks for no HALT (R186). -/
def haltCauseCode : Cause → Nat
  | .haltButton => 0
  | .configBad => 1
  | .addressConflict => 2
  | .linkMute => 3
  | .peerHalt => 0

/-- SAFE cause numbers: the bit in a cause set and the RELEASE_REFUSED detail. -/
def causeNumber : Cause → Nat
  | .haltButton => 0
  | .peerHalt => 1
  | .linkMute => 2
  | .addressConflict => 3
  | .configBad => 4

def modeCode : Mode → Nat
  | .park => 0
  | .transport => 1
  | .sweep => 2

/-- A received mode code; one not in the list is PARK (R72, R82, R126, R151). -/
def modeOfCode : Nat → Mode
  | 1 => .transport
  | 2 => .sweep
  | _ => .park

def directionCode : Direction → Nat
  | .forward => 0
  | .reverse => 1

/-- A received direction code; each reader says what a code not in the list is (R82, R126). -/
def directionOfCode : Nat → Option Direction
  | 0 => some .forward
  | 1 => some .reverse
  | _ => none

def driveStateCode : DriveState → Nat
  | .parked => 0
  | .standing => 1
  | .running => 2
  | .halting => 3
  | .held => 4

def armRequestCode : ArmRequest → Nat
  | .hold => 0
  | .deploy => 1
  | .retract => 2

/-- A received arm request code; one not in the list is HOLD (R126). -/
def armRequestOfCode : Nat → ArmRequest
  | 1 => .deploy
  | 2 => .retract
  | _ => .hold

def positionCode : Position → Nat
  | .left => 0
  | .right => 1
  | .main => 2
  | .aux => 3

def armStateCode : ArmState → Nat
  | .stowed => 0
  | .deploying => 1
  | .sweeping => 2
  | .yielding => 3
  | .yielded => 4
  | .resuming => 5
  | .retracting => 6
  | .fault => 7

def listCode : ListName → Nat
  | .none => 0
  | .deploy => 1
  | .retract => 2
  | .yield => 3
  | .resume => 4

def armFaultCode : ArmFault → Nat
  | .none => 0
  | .stepTimeout => 1
  | .angleRange => 2
  | .brushSensor => 3
  | .stationSafe => 4
  | .notStowed => 5

def waterStateCode : WaterState → Nat
  | .off => 0
  | .priming => 1
  | .spraying => 2
  | .idle => 3
  | .dry => 4
  | .fault => 5

def noticeCode : NoticeCode → Nat
  | .tankLow => 0
  | .pedalRange => 1
  | .modeInvalid => 2
  | .releaseRefused => 3
  | .publicationDropped => 4
  | .sensorLost => 5
  | .armNotStowed => 6
  | .configBad => 7

/-- The duty set as a byte: bit 0 DRIVE to bit 4 CONSOLE. -/
def dutySetCode (d : DutySet) : Nat :=
  bit d.drive 0 + bit d.armA 1 + bit d.armB 2 + bit d.water 3 + bit d.console 4

def pulseFnCode : PulseFn → Nat
  | .unused => 0
  | .wheel => 1
  | .engine => 2
  | .brushA => 3
  | .brushB => 4
  | .flow => 5

def channelStateCode : ChannelState → Nat
  | .stopped => 0
  | .tracking => 1
  | .oneMissing => 2
  | .lost => 3

def linkStateCode : LinkState → Nat
  | .hunt => 0
  | .on => 1
  | .mute => 2

/-- The ARM_NOT_STOWED unit detail: 0 for A, 1 for B. -/
def unitCode : ArmUnit → Nat
  | .a => 0
  | .b => 1

/-- The check codes 1–15 of R198. -/
def checkNumber : CheckCode → Nat
  | .address => 1
  | .noMemory => 2
  | .imageCrc => 3
  | .version => 4
  | .bitRate => 5
  | .dutySet => 6
  | .rule => 7
  | .period => 8
  | .ioAssignment => 9
  | .drive => 10
  | .water => 11
  | .console => 12
  | .arm => 13
  | .stepList => 14
  | .holdSet => 15

/-- The label codes of a rule entry (R209). -/
def labelOfCode : Nat → Option Label
  | 0 => some .plain
  | 1 => some .paceIn
  | 2 => some .travelIn
  | 3 => some .operatorIn
  | 4 => some .armIn
  | 5 => some .waterIn
  | 6 => some .haltIn
  | 7 => some .noticeIn
  | 8 => some .controlIn
  | _ => none

/-- The destination codes of a rule entry (R209). -/
def destinationOfCode : Nat → Option Destination
  | 0 => some .slot
  | 1 => some .queue
  | 2 => some .slotAndQueue
  | _ => none

/-! ## Topics (R46, R208) -/

def topicNumber : Topic → Nat
  | .halt => 1
  | .pace => 2
  | .travel => 3
  | .operator => 4
  | .armA => 5
  | .armB => 6
  | .water => 7
  | .notice => 8
  | .clear => 9
  | .query => 10
  | .report => 11

def topicClass : Topic → Nat
  | .halt => 0
  | .pace => 1
  | .travel => 2
  | .operator => 2
  | .armA => 3
  | .armB => 3
  | .water => 3
  | .notice => 4
  | .clear => 5
  | .query => 6
  | .report => 6

/-- The payload length of every frame of a topic (R208). -/
def topicLength : Topic → Nat
  | .halt => 2
  | .pace => 5
  | .travel => 12
  | .operator => 7
  | .armA => 12
  | .armB => 12
  | .water => 12
  | .notice => 3
  | .clear => 2
  | .query => 2
  | .report => 9

/-- The place of a topic's next sequence number, in topic order. -/
def topicIndex : Topic → Fin 11
  | .halt => 0
  | .pace => 1
  | .travel => 2
  | .operator => 3
  | .armA => 4
  | .armB => 5
  | .water => 6
  | .notice => 7
  | .clear => 8
  | .query => 9
  | .report => 10

/-- The topic of a cyclic topic. -/
def cyclicTopic : CyclicTopic → Topic
  | .pace => .pace
  | .travel => .travel
  | .operator => .operator
  | .armA => .armA
  | .armB => .armB
  | .water => .water

/-- The place of a cyclic topic's period and timer, in the order of image bytes 196–201. -/
def cyclicIndex : CyclicTopic → Fin 6
  | .pace => 0
  | .travel => 1
  | .operator => 2
  | .armA => 3
  | .armB => 4
  | .water => 5

/-- The six cyclic topics. -/
def cyclicTopics : List CyclicTopic := [.pace, .travel, .operator, .armA, .armB, .water]

/-! ## The frame (R27, R28, R206) -/

/-- A header: class in 3 bits, topic in 5, source in 4, payload length in 4. -/
def makeHeader (cls : BitVec 3) (topic : BitVec 5) (source length : BitVec 4) : Word16 :=
  cls ++ topic ++ source ++ length

/-- The header of every frame a station builds for a topic (R46, R48). -/
def topicHeader (t : Topic) (address : BitVec 4) : Word16 :=
  makeHeader (BitVec.ofNat 3 (topicClass t)) (BitVec.ofNat 5 (topicNumber t)) address (BitVec.ofNat 4 (topicLength t))

/-- The topic number a header names. -/
def headerTopic (h : Word16) : Nat := (h.extractLsb' 8 5).toNat

/-- The source station a header names. -/
def headerSource (h : Word16) : BitVec 4 := h.extractLsb' 4 4

/-- The payload length a header declares. -/
def headerLength (h : Word16) : Nat := (h.extractLsb' 0 4).toNat

/-- The first 12 bits of a header, which the subscription table compares (R2). -/
def headerKey (h : Word16) : BitVec 12 := h.extractLsb' 4 12

/-- One bit of the CRC of R28: compare the register's highest bit with the data bit, shift, and exclusive-OR 0x1021 when
they differed. -/
def crcBit (r : Word16) (b : Bool) : Word16 := if r.msb != b then (r <<< 1) ^^^ 0x1021#16 else r <<< 1

/-- The bits of a byte, most significant first, as they go on the wire (R25). -/
def byteBits (x : Byte) : List Bool := [7, 6, 5, 4, 3, 2, 1, 0].map fun i => x.getLsbD i

/-- One byte of the CRC. -/
def crcByte (r : Word16) (x : Byte) : Word16 := (byteBits x).foldl crcBit r

/-- The CRC of R28 over some bytes, from a register of 0xFFFF. -/
def crc16 (bytes : List Byte) : Word16 := bytes.foldl crcByte 0xFFFF#16

/-- The two bytes of a 16-bit word, high byte first. -/
def wordBytes (w : Word16) : List Byte := [w.extractLsb' 8 8, w.extractLsb' 0 8]

/-- The bytes a frame's CRC covers: header, sequence number, payload (R28). -/
def coveredBytes (header : Word16) (seq : Byte) (payload : List Byte) : List Byte :=
  wordBytes header ++ [seq] ++ payload

/-- The 5 + L characters of a frame as a station sends them (R27). -/
def frameChars (header : Word16) (seq : Byte) (payload : List Byte) : List Byte :=
  coveredBytes header seq payload ++ wordBytes (crc16 (coveredBytes header seq payload))

/-- The bits of one character on the wire: a dominant start bit, the byte most significant bit first, a recessive stop bit;
`false` is dominant (R25). -/
def charBits (x : Byte) : List Bool := false :: (byteBits x ++ [true])

/-- What a receiver has collected when a frame completes: header, sequence number, payload, CRC (R27, R30). -/
structure CollectedFrame where
  header : Word16
  seq : Byte
  payload : List Byte
  crc : Word16
deriving DecidableEq, Repr

/-- The frame that 5 + L received characters carry (R27). -/
def collectFrame (chars : List Byte) : CollectedFrame where
  header := chars.getD 0 0 ++ chars.getD 1 0
  seq := chars.getD 2 0
  payload := (chars.drop 3).take (declaredLength chars)
  crc := chars.getD (3 + declaredLength chars) 0 ++ chars.getD (4 + declaredLength chars) 0

/-- A completed frame is good when the CRC over its bytes equals the CRC it carries (R28). -/
def frameGood (f : CollectedFrame) : Bool := crc16 (coveredBytes f.header f.seq f.payload) == f.crc

/-- The bit time in µs at a bit rate (R26). -/
def bitMicros : BitRate → Nat
  | .k125 => 8
  | .k250 => 4
  | .k500 => 2

end Sys2Proof.Machine
end

