-- ==== Sys2Proof/Machine/Operands.lean ====
section
/-! DEFINITION. Every way the blocks read what they work on: time, the subscription table, peer slots by label (R10, R17–R19),
the operator's and the travel record, pulse channels (R109–R113), analog values (R119) and switches (R120). -/

namespace Sys2Proof.Machine

/-! ## Time -/

/-- The free-running microsecond count: 32 bits, from 0 at station reset (R108). -/
def usCount (s : State) : BitVec 32 := BitVec.ofNat 32 s.micros

/-- Station milliseconds (spec/00, Time). -/
def ms (s : State) : Nat := s.micros / 1000

/-- An interval on a pulse channel: the difference of two readings of the microsecond count, mod 2^32 (R108). -/
def interval (now earlier : Nat) : Nat := (BitVec.ofNat 32 now - BitVec.ofNat 32 earlier).toNat

/-- Whether a timer's or deadline's instant has been reached. -/
def due (now : Nat) : Option Nat → Bool
  | some t => t ≤ now
  | none => false

/-- The duties run, and inputs are watched, from the entry to JOINING (R81, R107, R125, R150, R170). -/
def dutiesRun (s : State) : Bool := s.loader.station == .joining || s.loader.station == .operating

/-- The station is OPERATING. -/
def operating (s : State) : Bool := s.loader.station == .operating

/-! ## SAFE (R182) -/

/-- Whether a cause is in a set. -/
def hasCause (c : CauseSet) : Cause → Bool
  | .haltButton => c.haltButton
  | .peerHalt => c.peerHalt
  | .linkMute => c.linkMute
  | .addressConflict => c.addressConflict
  | .configBad => c.configBad

/-- The causes in the order of R190. -/
def allCauses : List Cause := [.haltButton, .peerHalt, .linkMute, .addressConflict, .configBad]

/-- The SAFE flag: set exactly while the cause set is not empty (spec/10). -/
def isSafe (s : State) : Bool := allCauses.any (hasCause s.safe.causes)

/-! ## Arm units by name -/

/-- The parameters of an arm unit. -/
def armParams (s : State) : ArmUnit → ArmParams
  | .a => s.params.armA
  | .b => s.params.armB

/-- Whether the station carries an arm unit. -/
def armPresent (s : State) : ArmUnit → Bool
  | .a => s.duties.armA
  | .b => s.duties.armB

def armTopic : ArmUnit → CyclicTopic
  | .a => .armA
  | .b => .armB

def brushFn : ArmUnit → PulseFn
  | .a => .brushA
  | .b => .brushB

def angleFn : ArmUnit → AnalogFn
  | .a => .angleA
  | .b => .angleB

def deflectFn : ArmUnit → SwitchFn
  | .a => .deflectA
  | .b => .deflectB

/-- The steps of an arm's list (R122). -/
def listSteps (p : ArmParams) : ListName → List Step
  | .none => []
  | .deploy => p.deploy
  | .retract => p.retract
  | .yield => p.yield
  | .resume => p.resume

/-- The current step of an arm, 1–16, none while no list runs (spec/07). -/
def currentStep (p : ArmParams) (a : Arm) : Option Nat :=
  if a.list = .none then none else some ((listSteps p a.list).length - a.remaining + 1)

/-- The steps of the running list not yet completed, the one in progress first (R134). -/
def stepsLeft (p : ArmParams) (a : Arm) : List Step :=
  (listSteps p a.list).drop ((listSteps p a.list).length - a.remaining)

/-! ## The subscription table (R2, R5, R10) -/

/-- A rule's label; the image checks keep every rule in use to a listed code (R198). -/
def ruleLabel (r : Rule) : Label := (labelOfCode r.labelCode.toNat).getD .plain

/-- A rule's destination. -/
def ruleDestination (r : Rule) : Destination := (destinationOfCode r.destCode.toNat).getD .slot

/-- A rule's age limit in ms (R2). -/
def ruleAgeLimit (r : Rule) : Nat := r.ageSteps.toNat * 10

/-- Whether a rule's destination stores into a slot. -/
def ruleStores (r : Rule) : Bool := ruleDestination r != .queue

/-- A rule matches when it is in use, every header bit its mask marks equals its match value's, and its origin is the
frame's (R5). -/
def ruleMatches (r : Rule) (origin : Origin) (header : Word16) : Bool :=
  r.inUse && (headerKey header &&& r.mask == r.matchValue &&& r.mask) && r.origin == origin

/-- The rules' numbers in index order. -/
def ruleNumbers : List (Fin 24) := List.finRange 24

/-- The matching rule of a frame: the first that matches (R5). -/
def matchingRule (table : Vector Rule 24) (f : HeldFrame) : Option (Fin 24) :=
  ruleNumbers.find? fun i => ruleMatches table[i] f.origin f.header

/-- The naming rule of a slot: the lowest-numbered rule in use that stores and names it (R10). -/
def namingRule (table : Vector Rule 24) (slot : Fin 32) : Option (Fin 24) :=
  ruleNumbers.find? fun i => table[i].inUse && ruleStores table[i] && table[i].slotNumber.toNat == slot.val

/-- The rule a slot's label and required marking come from: the recorded one, or an EMPTY slot's naming rule (R10). -/
def governingRule (p : Picture) (slot : Fin 32) : Option (Fin 24) :=
  match p.slots[slot].record with
  | some r => some r.rule
  | none => namingRule p.table slot

/-- A slot's label (R10). -/
def slotLabel (p : Picture) (slot : Fin 32) : Option Label :=
  (governingRule p slot).map fun i => ruleLabel p.table[i]

/-- A slot's required marking (R10). -/
def slotRequired (p : Picture) (slot : Fin 32) : Bool :=
  match governingRule p slot with
  | some i => p.table[i].required
  | none => false

/-- The slots in number order. -/
def slotNumbers : List (Fin 32) := List.finRange 32

/-- Every slot of a label, in slot-number order (R18). -/
def slotsOf (p : Picture) (l : Label) : List (Fin 32) :=
  slotNumbers.filter fun n => slotLabel p n == some l

/-- Whether a record is FRESH or AGED. -/
def recordHeard (r : SlotRecord) : Bool := r.age != .lost

/-- The record of a label taken as one slot, when its duty hears it: the lowest-numbered slot of the label, FRESH or AGED,
naming the label's own topic; none stands for LOST, EMPTY or no slot (R18, R19). -/
def heardRecord (p : Picture) (l : Label) (t : Topic) : Option SlotRecord :=
  match (slotsOf p l).head? with
  | some n =>
    match p.slots[n].record with
    | some r => if recordHeard r && headerTopic r.header == topicNumber t then some r else none
    | none => none
  | none => none

/-- The OPERATOR_IN record a duty hears. -/
def operatorRecord (s : State) : Option SlotRecord := heardRecord s.picture .operatorIn .operator

/-- The TRAVEL_IN record a duty hears. -/
def travelRecord (s : State) : Option SlotRecord := heardRecord s.picture .travelIn .travel

/-- A slot record's received length (R9). -/
def receivedLength (r : SlotRecord) : Nat := headerLength r.header

/-- Whether payload bytes beyond the twelfth were lost (R12). -/
def recordTruncated (r : SlotRecord) : Bool := 12 < receivedLength r

/-! ## Record fields (R208), read as R19 gives -/

/-- The arm request of an OPERATOR payload at a position: LEFT in bits 7–6 of byte 4 down to AUX in bits 1–0. -/
def operatorRequest (payload : List Byte) (p : Position) : ArmRequest :=
  armRequestOfCode (byteAt payload 4 / 4 ^ (3 - positionCode p) % 4)

/-- The measured speed of a TRAVEL payload, clamped to 0–6000 (R126, R151). -/
def travelSpeed (payload : List Byte) : Nat := min 6000 (wordAt payload 0)

/-- The direction of a TRAVEL payload; a code not listed is unknown (R126). -/
def travelDirection (payload : List Byte) : Option Direction := directionOfCode (byteAt payload 4)

/-- The distance of a TRAVEL payload. -/
def travelDistance (payload : List Byte) : Nat := longAt payload 6

/-! ## Pulse channels (R107–R114) -/

/-- The channel numbers. -/
def channelNumbers : List (Fin 6) := List.finRange 6

/-- The channel carrying a function, if one is assigned. -/
def channelOf (i : Inputs) (fn : PulseFn) : Option (Fin 6) :=
  channelNumbers.find? fun c => i.pulse[c].fn == fn

/-- A function's channel constants from the image. -/
def pulseConst (p : Params) : PulseFn → PulseConst
  | .unused => State.noConst
  | .wheel => p.drive.wheelConst
  | .engine => p.drive.engineConst
  | .brushA => p.armA.brushConst
  | .brushB => p.armB.brushConst
  | .flow => p.water.flowConst

/-- A channel's maximum window W in µs. -/
def windowMicros (c : PulseConst) : Nat := c.windowSteps * 10000

/-- floor(K / P), held at 65535 (R109). -/
def rateOf (k period : Nat) : Nat := min 65535 (k / period)

/-- A channel's value at an instant: 0 in STOPPED and LOST, the last edge's in TRACKING, floor(K / T) in ONE_MISSING, where
T is the time since the last accepted edge (R109, R112). -/
def channelReading (p : Params) (now : Nat) (c : PulseChannel) : Nat :=
  match c.state with
  | .stopped => 0
  | .lost => 0
  | .tracking => c.value
  | .oneMissing =>
    match c.lastEdge with
    | some e => rateOf (pulseConst p c.fn).k (interval now e)
    | none => 0

/-- The value of a function's channel, 0 with no channel. -/
def fnValue (s : State) (fn : PulseFn) : Nat :=
  match channelOf s.inputs fn with
  | some c => channelReading s.params s.micros s.inputs.pulse[c]
  | none => 0

/-- The state of a function's channel, none with no channel. -/
def fnState (s : State) (fn : PulseFn) : Option ChannelState :=
  (channelOf s.inputs fn).map fun c => s.inputs.pulse[c].state

/-- The expect-motion input of a function (R113): whether its reader expects motion now, and the instant (µs) at which it
last began to. -/
def expectMotion (s : State) : PulseFn → Bool
  | .wheel => 300 ≤ s.drive.v
  | .brushA => 0 < s.armA.target
  | .brushB => 0 < s.armB.target
  | .flow => 0 < s.water.pump
  | .engine => false
  | .unused => false

/-- The instant (µs) at which a function's expect-motion input last changed to expecting (R114). -/
def expectSince (s : State) : PulseFn → Option Nat
  | .wheel => s.drive.expectSince
  | .brushA => s.armA.expectSince
  | .brushB => s.armB.expectSince
  | .flow => s.water.expectSince
  | .engine => none
  | .unused => none

/-- How an expect-motion instant moves when its input goes from `was` to `is` at `now` (R114). -/
def noteExpect (now : Nat) (was is : Bool) (since : Option Nat) : Option Nat :=
  if is then (if was then since else some now) else none

/-! ## Analog inputs (R117–R119) -/

/-- The input carrying a function, if one is assigned. -/
def analogOf (i : Inputs) (fn : AnalogFn) : Option AnalogInput :=
  ((List.finRange 4).find? fun n => i.analog[n].fn == fn).map fun n => i.analog[n]

/-- PEDAL: the reading while IN_RANGE, 0 while OUT_OF_RANGE or not assigned (R119, R172). -/
def pedalValue (i : Inputs) : Nat :=
  match analogOf i .pedal with
  | some a => if a.inRange then a.reading else 0
  | none => 0

/-- RATE_KNOB: the reading while IN_RANGE, the last in-range reading while OUT_OF_RANGE, 0 without one (R119, R173). -/
def knobValue (i : Inputs) : Nat :=
  match analogOf i .rateKnob with
  | some a => if a.inRange then a.reading else a.lastGood.getD 0
  | none => 0

/-- TANK: the reading while IN_RANGE, 0 while OUT_OF_RANGE (R119). -/
def tankValue (i : Inputs) : Nat :=
  match analogOf i .tank with
  | some a => if a.inRange then a.reading else 0
  | none => 0

/-- An angle input's reading, whatever its range state (R119). -/
def angleValue (i : Inputs) (u : ArmUnit) : Nat :=
  match analogOf i (angleFn u) with
  | some a => a.reading
  | none => 0

/-- Whether an angle input is IN_RANGE (R119). -/
def angleInRange (i : Inputs) (u : ArmUnit) : Bool :=
  match analogOf i (angleFn u) with
  | some a => a.inRange
  | none => false

/-! ## Switches (R120) -/

/-- The switch carrying a function, if one is assigned. -/
def switchOf (i : Inputs) (fn : SwitchFn) : Option SwitchInput :=
  ((List.finRange 8).find? fun n => i.switches[n].fn == fn).map fun n => i.switches[n]

/-- A function's taken level; an unassigned switch reads off (R120, R171). -/
def switchOn (i : Inputs) (fn : SwitchFn) : Bool :=
  match switchOf i fn with
  | some x => x.level
  | none => false

/-- The HALT button is pressed: its switch is assigned, and its taken level is on with a NORMALLY_OPEN contact or off with a
NORMALLY_CLOSED one (R176). -/
def haltPressed (s : State) : Bool :=
  match switchOf s.inputs .haltButton with
  | some x => x.level != s.params.console.haltNormallyClosed
  | none => false

end Sys2Proof.Machine
end

