-- ==== Sys2Proof/Machine/Flags.lean ====
section
/-! DEFINITION. The latched flags of the station: what LATCHES clears (R20, R44, R64, R115, R192) and how REPORT STATUS carries
them (R63, R208). -/

namespace Sys2Proof.Machine

/-- Whether any slot's gap flag is set (R20). -/
def gapSeen (p : Picture) : Bool := slotNumbers.any fun n => p.slots[n].gap

/-- Whether any non-EMPTY slot holds a truncated record (R20). -/
def truncationSeen (p : Picture) : Bool :=
  slotNumbers.any fun n =>
    match p.slots[n].record with
    | some r => recordTruncated r
    | none => false

/-- The latched flag summary of REPORT STATUS, bits 15 to 5 (R208). -/
def flagSummary (s : State) : Nat :=
  bit s.link.crcFlag 15 + bit s.link.framingFlag 14 + bit s.link.shortFlag 13 + bit s.link.muteFlag 12
    + bit s.picture.shortPayload 11 + bit (gapSeen s.picture) 10 + bit (truncationSeen s.picture) 9
    + bit s.pub.late 8 + bit s.pub.droppedFlag 7 + bit s.inputs.sensorLost 6 + bit (s.water.state == .fault) 5

/-- The overruns byte of REPORT STATUS (R208). -/
def overruns (s : State) : Nat := bit s.link.overrunFlag 0 + bit s.picture.eventOverrun 1

/-- The channel states word of REPORT STATUS: PI0 in bits 15–14 down to PI5 in bits 5–4 (R208). -/
def channelStates (s : State) : Nat :=
  (channelNumbers.map fun c => channelStateCode s.inputs.pulse[c].state * 4 ^ (7 - c.val)).sum

/-- The Link Controller with its five flags clear (R44). -/
def clearLinkFlags (l : Link) : Link :=
  { l with crcFlag := false, framingFlag := false, shortFlag := false, overrunFlag := false, muteFlag := false }

/-- The picture with its flags clear, the gap flag of every slot among them (R20). -/
def clearPictureFlags (p : Picture) : Picture :=
  { p with
    slots := Vector.ofFn fun n => { p.slots[n] with gap := false }
    shortPayload := false
    eventOverrun := false }

/-- Every latched flag of the station cleared; the water FAULT state is the water duty's own (R160, R192). -/
def clearFlags (s : State) : State :=
  { s with
    link := clearLinkFlags s.link
    picture := clearPictureFlags s.picture
    pub := { s.pub with late := false, droppedFlag := false }
    inputs := { s.inputs with sensorLost := false } }

end Sys2Proof.Machine
end

