-- ==== Sys2Proof/Machine/Records.lean ====
section
/-! DEFINITION. What each record carries, built from the state of one instant (R48–R52, R61–R63, R104, R147, R168, R175,
R208), and the combined claim that PACE carries (R69). -/

namespace Sys2Proof.Machine

/-! ## Claims (R65–R69) -/

/-- The order of urgencies: NORMAL lowest, STOP highest (R65). -/
def urgencyRank : Urgency → Nat := urgencyCode

/-- Whether the first urgency is higher than the second (R65). -/
def higherUrgency (a b : Urgency) : Bool := urgencyRank b < urgencyRank a

/-- The claims of the duties the station carries, in the order DRIVE, ARM_A, ARM_B, WATER, CONSOLE (R69). -/
def dutyClaims (s : State) : List (Duty × Claim) :=
  let one (present : Bool) (d : Duty) (c : Option Claim) : List (Duty × Claim) :=
    if present then (c.map fun x => (d, x)).toList else []
  one s.duties.drive .drive s.drive.claim ++ one s.duties.armA .armA s.armA.claim
    ++ one s.duties.armB .armB s.armB.claim ++ one s.duties.water .water s.water.claim
    ++ one s.duties.console .console s.console.claim

/-- Whether a claim limits more than another: a smaller ceiling, or at the same ceiling a higher urgency (R69). -/
def limitsMore (a b : Claim) : Bool :=
  a.ceiling < b.ceiling || (a.ceiling == b.ceiling && higherUrgency a.urgency b.urgency)

/-- The station's combined claim with its limiting duty: the first, in duty order, of those no other limits more (R69). -/
def combinedClaim (s : State) : Option (Duty × Claim) :=
  match dutyClaims s with
  | [] => none
  | x :: rest => some (rest.foldl (fun best y => if limitsMore y.2 best.2 then y else best) x)

/-! ## Cyclic records -/

/-- PACE (R49, R208): the combined claim at this instant. -/
def paceRecord (s : State) : List Byte :=
  match combinedClaim s with
  | some (d, c) => [byteOf (dutyCode (some d))] ++ be16 c.ceiling ++ [byteOf (urgencyCode c.urgency), byteOf (reasonCode c.reason)]
  | none => [byteOf (dutyCode none)] ++ be16 6000 ++ [byteOf (urgencyCode .normal), byteOf (reasonCode .none)]

/-- TRAVEL (R50, R104, R208). -/
def travelRecordOut (s : State) : List Byte :=
  be16 s.drive.vm ++ be16 s.drive.v ++ [byteOf (directionCode s.drive.direction), byteOf (driveStateCode s.drive.state)]
    ++ be24 (s.inputs.distance.toNat % 2 ^ 24) ++ be16 s.drive.pace.ceiling
    ++ [byteOf (s.drive.pace.source.toNat * 16 + reasonCode s.drive.pace.reason)]

/-- OPERATOR (R50, R175, R208). -/
def operatorRecordOut (s : State) : List Byte :=
  let r := s.console.requests
  [byteOf (modeCode s.console.mode), byteOf (directionCode s.console.direction)] ++ be16 s.console.pedal
    ++ [byteOf (armRequestCode r.left * 64 + armRequestCode r.right * 16 + armRequestCode r.main * 4 + armRequestCode r.aux)]
    ++ be16 s.console.rate

/-- The width in use an arm reports (R146). -/
def armWidth (p : ArmParams) (a : Arm) : Nat :=
  match a.state with
  | .sweeping => p.sweepWidth
  | .yielding | .yielded => p.yieldWidth
  | .deploying | .resuming => if a.brushOnRun then p.sweepWidth else 0
  | .stowed | .retracting | .fault => 0

/-- ARM_A or ARM_B (R51, R147, R208). -/
def armRecordOut (s : State) (u : ArmUnit) : List Byte :=
  let a := s.arm u
  let p := armParams s u
  [byteOf (positionCode p.position), byteOf (armStateCode a.state), byteOf (listCode a.list), byteOf a.remaining]
    ++ be16 (armWidth p a) ++ be16 a.target ++ be16 (fnValue s (brushFn u))
    ++ [byteOf a.load, byteOf (armFaultCode a.cause)]

/-- WATER (R51, R168, R208). -/
def waterRecordOut (s : State) : List Byte :=
  let w := s.water
  [byteOf (waterStateCode w.state)] ++ be16 w.q ++ be16 (fnValue s .flow) ++ be16 w.tank ++ be16 w.rate ++ be16 w.width
    ++ [byteOf (bit w.saturated 1 + bit w.dry 0)]

/-- The payload of a cyclic topic, from its owner's state at this instant (R48). -/
def cyclicRecord (s : State) : CyclicTopic → List Byte
  | .pace => paceRecord s
  | .travel => travelRecordOut s
  | .operator => operatorRecordOut s
  | .armA => armRecordOut s .a
  | .armB => armRecordOut s .b
  | .water => waterRecordOut s

/-- Whether the station publishes a cyclic topic (R47). -/
def publishes (d : DutySet) : CyclicTopic → Bool
  | .pace => d.drive || d.armA || d.armB || d.water || d.console
  | .travel => d.drive
  | .operator => d.console
  | .armA => d.armA
  | .armB => d.armB
  | .water => d.water

/-! ## Event records -/

/-- The originating duty of a HALT: CONSOLE for HALT_BUTTON, NONE for the station-level causes (R49, R185). -/
def haltDuty : Cause → Option Duty
  | .haltButton => some .console
  | _ => none

/-- HALT (R49, R208). -/
def haltRecord (c : Cause) : List Byte := [byteOf (haltCauseCode c), byteOf (dutyCode (haltDuty c))]

/-- NOTICE (R52, R208). -/
def noticeRecord (c : NoticeCode) (detail1 detail2 : Nat) : List Byte :=
  [byteOf (noticeCode c), byteOf detail1, byteOf detail2]

/-- The items of a CLEAR (R52). -/
structure ClearItems where
  releaseSafe : Bool
  latches : Bool
  armA : Bool
  armB : Bool
deriving DecidableEq, Repr

/-- CLEAR (R52, R208). -/
def clearRecord (target : Nat) (i : ClearItems) : List Byte :=
  [byteOf target, byteOf (bit i.releaseSafe 0 + bit i.latches 1 + bit i.armA 2 + bit i.armB 3)]

/-- The items a received CLEAR names (R208). -/
def clearItems (payload : List Byte) : ClearItems :=
  let b := byteAt payload 1
  ⟨b.testBit 0, b.testBit 1, b.testBit 2, b.testBit 3⟩

/-- REPORT of kind IDENT (R62, R208). -/
def identRecord (s : State) : List Byte :=
  [byteOf 0, byteOf 0x3D] ++ be16 2460 ++ [byteOf 1, byteOf s.loader.address.toNat, byteOf (dutySetCode s.duties)]
    ++ wordBytes (s.loader.imageCrc.getD 0)

/-- The SAFE cause set as a byte (R207, R208). -/
def causeSetCode (c : CauseSet) : Nat := (allCauses.map fun x => bit (hasCause c x) (causeNumber x)).sum

/-- REPORT of kind STATUS (R63, R208). -/
def statusRecord (s : State) : List Byte :=
  [byteOf 1, byteOf (causeSetCode s.safe.causes), byteOf (linkStateCode s.link.state), byteOf s.link.tally]
    ++ be16 (flagSummary s) ++ [byteOf (overruns s)] ++ be16 (channelStates s)

/-- The REPORT that answers a QUERY: STATUS when its what field is 1, IDENT otherwise (R61, R208). -/
def reportRecord (s : State) (what : Nat) : List Byte := if what = 1 then statusRecord s else identRecord s

end Sys2Proof.Machine
end

