-- ==== Sys2Proof/Machine/Ops.lean ====
section
/-! DEFINITION. The shared operations of the Publication Scheduler (spec/03) and of the claims (spec/04, 4.1 and 4.2): building
frames, the transmit list, cyclic and event requests, the return of a frame, and re-forming a claim with the immediate PACE
that a rise of urgency asks for. -/

namespace Sys2Proof.Machine

/-! ## Building (R48, R56) -/

/-- The number the topic's next frame carries. -/
def nextNumber (p : Publication) (t : Topic) : Byte := p.nextSeq[topicIndex t]

/-- The topic's next sequence number advanced by 1, mod 256 (R56). -/
def advanceSeq (p : Publication) (t : Topic) : Publication :=
  { p with nextSeq := p.nextSeq.set (topicIndex t) (nextNumber p t + 1) }

/-- A cyclic frame built at this instant (R48). -/
def cyclicEntry (s : State) (t : CyclicTopic) : TxEntry where
  kind := .cyclic
  header := topicHeader (cyclicTopic t) s.loader.address
  seq := nextNumber s.pub (cyclicTopic t)
  payload := cyclicRecord s t
  enqueued := none

/-- An event frame built at this instant (R48). -/
def eventEntry (s : State) (t : Topic) (payload : List Byte) : TxEntry where
  kind := .event
  header := topicHeader t s.loader.address
  seq := nextNumber s.pub t
  payload := payload
  enqueued := some (ms s)

/-! ## The transmit list (R53) -/

/-- A new entry at its place by header, behind those of equal header (R53). -/
def insertNew (e : TxEntry) : List TxEntry → List TxEntry
  | [] => [e]
  | x :: rest => if e.header.toNat < x.header.toNat then e :: x :: rest else x :: insertNew e rest

/-- A returning event at its place by header, ahead of those of equal header (R57). -/
def insertReturned (e : TxEntry) : List TxEntry → List TxEntry
  | [] => [e]
  | x :: rest => if e.header.toNat ≤ x.header.toNat then e :: x :: rest else x :: insertReturned e rest

/-- Whether an entry is the pending cyclic entry of a header. -/
def isPendingCyclic (h : Word16) (x : TxEntry) : Bool := x.kind == .cyclic && x.header == h

/-- Whether an entry is an event. -/
def isEvent (x : TxEntry) : Bool := x.kind == .event

/-- Whether an entry is a HALT. -/
def isHalt (x : TxEntry) : Bool := headerTopic x.header == topicNumber .halt

/-- Event places taken: pending events and any event frame in hand (R53). -/
def placesTaken (s : State) : Nat :=
  (s.pub.list.filter isEvent).length + (s.link.inHand.filter isEvent).toList.length

/-! ## Cyclic topics (R54, R55) -/

/-- A topic's period in ms (R47). -/
def periodOf (s : State) (t : CyclicTopic) : Nat := s.params.periods[cyclicIndex t] * 10

/-- The urgency of the combined claim, NORMAL without one. -/
def combinedUrgency (s : State) : Urgency :=
  match combinedClaim s with
  | some x => x.2.urgency
  | none => .normal

/-- A cyclic publication (R54): a new entry when none of the topic is pending; otherwise the pending entry rebuilt with the
next sequence number in its place and the late flag latched. A PACE sets the last PACE urgency (R55). -/
def publishCyclic (t : CyclicTopic) (s : State) : State :=
  let e := cyclicEntry s t
  let pending := s.pub.list.any (isPendingCyclic e.header)
  let p := advanceSeq s.pub (cyclicTopic t)
  s.withPub { p with
    list := if pending then p.list.map fun x => if isPendingCyclic e.header x then e else x else insertNew e p.list
    late := p.late || pending
    lastUrgency := if t = .pace then combinedUrgency s else p.lastUrgency }

/-- A topic's period timer set to run its full period from an instant. -/
def startPeriod (t : CyclicTopic) (start : Nat) (s : State) : State :=
  s.withPub { s.pub with timers := s.pub.timers.set (cyclicIndex t) (some (start + periodOf s t)) }

/-- An immediate request (R55): as a period expiry, restarting the timer from this moment. Nothing is enqueued outside
OPERATING (R59), nor of a topic the station does not publish (R47). -/
def requestCyclic (t : CyclicTopic) (s : State) : State :=
  if operating s && publishes s.duties t then startPeriod t (ms s) (publishCyclic t s) else s

/-! ## Events (R58–R60) -/

/-- The place of the entry that a HALT displaces: of the events, the one with the highest header, the last of equal ones
(R58, R59). -/
def highestEvent : List TxEntry → Option (Nat × TxEntry)
  | [] => none
  | x :: rest =>
    match highestEvent rest with
    | some (i, y) => if isEvent x && y.header.toNat < x.header.toNat then some (0, x) else some (i + 1, y)
    | none => if isEvent x then some (0, x) else none

/-- A discarded event counted: the flag latched, the count raised, the topic kept (R58). -/
def countDropped (topic : Nat) (p : Publication) : Publication :=
  { p with droppedFlag := true, dropped := min 255 (p.dropped + 1), lastDropped := topic }

/-- An event offered to a list of entries when all its places are taken (R58, R59): a HALT displaces the highest event that
is not a HALT; anything else is itself discarded. The answer is the list left, the topic discarded, and whether the new
event joins. -/
def offerFull (e : TxEntry) (l : List TxEntry) : List TxEntry × Nat × Bool :=
  match highestEvent l with
  | some (i, x) => if isHalt e && !isHalt x then (l.eraseIdx i, headerTopic x.header, true) else (l, headerTopic e.header, false)
  | none => (l, headerTopic e.header, false)

/-- An event built in OPERATING, enqueued when a place is free, otherwise handled as R58 gives. -/
def enqueueEvent (e : TxEntry) (s : State) : State :=
  if placesTaken s < 4 then s.withPub { s.pub with list := insertNew e s.pub.list }
  else
    let (l, topic, joins) := offerFull e s.pub.list
    s.withPub (countDropped topic { s.pub with list := if joins then insertNew e l else l })

/-- An event built in JOINING, kept among the deferred events (R59). -/
def deferEvent (e : TxEntry) (s : State) : State :=
  if s.pub.deferred.length < 4 then s.withPub { s.pub with deferred := s.pub.deferred ++ [e] }
  else
    let (l, topic, joins) := offerFull e s.pub.deferred
    s.withPub (countDropped topic { s.pub with deferred := if joins then l ++ [e] else l })

/-- A block asks to publish an event: built and enqueued in OPERATING, built and deferred in JOINING, discarded without a mark
in CONFIG_FAULT; nothing asks in CONFIGURING (R58–R60). -/
def requestEvent (t : Topic) (payload : List Byte) (s : State) : State :=
  match s.loader.station with
  | .operating => enqueueEvent (eventEntry s t payload) (s.withPub (advanceSeq s.pub t))
  | .joining => deferEvent (eventEntry s t payload) (s.withPub (advanceSeq s.pub t))
  | .configuring => s
  | .configFault => s

/-- A block asks for a NOTICE (R52). -/
def requestNotice (c : NoticeCode) (detail1 detail2 : Nat) (s : State) : State :=
  requestEvent .notice (noticeRecord c detail1 detail2) s

/-- The NOTICE CONFIG_BAD of CONFIG_FAULT: built, and enqueued if an event place is free, otherwise discarded and counted
(R60). -/
def requestConfigBad (s : State) : State :=
  let code := (s.loader.failedCheck.map checkNumber).getD 0
  let e := eventEntry s .notice (noticeRecord .configBad code 0)
  let s1 := s.withPub (advanceSeq s.pub .notice)
  if placesTaken s1 < 4 then s1.withPub { s1.pub with list := insertNew e s1.pub.list }
  else s1.withPub (countDropped (topicNumber .notice) s1.pub)

/-- A frame that comes back not sent (R57): a cyclic frame is discarded when an entry of its topic is pending, otherwise it
rejoins; an event rejoins ahead of those of equal header. -/
def returnFrame (e : TxEntry) (s : State) : State :=
  match e.kind with
  | .cyclic =>
    if s.pub.list.any (isPendingCyclic e.header) then s
    else s.withPub { s.pub with list := insertNew e s.pub.list }
  | .event => s.withPub { s.pub with list := insertReturned e s.pub.list }

/-- The NOTICE PUBLICATION_DROPPED that an event place freed by a success owes while the dropped count is above 0 (R58); not
built in CONFIG_FAULT (R60). -/
def reportDropped (s : State) : State :=
  if operating s && 0 < s.pub.dropped && placesTaken s < 4 then
    let e := eventEntry s .notice (noticeRecord .publicationDropped s.pub.dropped s.pub.lastDropped)
    let p := advanceSeq s.pub .notice
    s.withPub { p with list := insertNew e p.list, dropped := 0 }
  else s

/-- An event place freed by a success (R58). Which is taken first, the NOTICE owed or an event asked for at this instant, the
spec leaves open: a free value (notes/assumptions/26.md). With the NOTICE first it is built at once; otherwise it stays owed to
the end of this instant, so that an event asked for meanwhile takes the place. -/
def freePlace (s : State) : State :=
  if operating s && 0 < s.pub.dropped then
    if Config.noticeFirst s.micros then reportDropped s else s.withPub { s.pub with noticeDue := true }
  else s

/-- The end of an instant at which a place was freed (R58): the NOTICE still owed is built if a place is free, and otherwise
waits for the next place that a success frees. -/
def settleNotice (s : State) : State :=
  if s.pub.noticeDue then reportDropped (s.withPub { s.pub with noticeDue := false }) else s

/-! ## Claims (R65–R70, R145, R167) -/

/-- The claim of a duty that limits nothing. -/
def freeClaim : Claim := ⟨6000, .normal, .none⟩

/-- The claim that replaces every duty's while SAFE (R68). -/
def safeClaim : Claim := ⟨0, .stop, .stationSafe⟩

/-- The claim a duty holds: its own, or the replacement while SAFE (R68). -/
def formClaim (s : State) (own : Claim) : Claim := if isSafe s then safeClaim else own

/-- The drive's own claim (R66). -/
def driveOwnClaim (s : State) : Claim :=
  let lost : Claim := ⟨s.params.drive.creep, .prompt, .wheelSensor⟩
  let back : Claim := ⟨s.params.drive.reverseMax, .normal, .reverseLimit⟩
  if fnState s .wheel = some .lost then
    if s.drive.direction = .reverse ∧ back.ceiling < lost.ceiling then back else lost
  else if s.drive.direction = .reverse then back
  else freeClaim

/-- The static ceiling Vs of an arm (R123). -/
def staticCeiling (p : ArmParams) : Nat :=
  if p.slope = 0 then 6000 else min 6000 ((p.maxRpm - p.baseRpm) * 1000 / p.slope)

/-- An arm's own claim by its state (R145). -/
def armOwnClaim (p : ArmParams) (a : Arm) : Claim :=
  match a.state with
  | .stowed => freeClaim
  | .deploying | .retracting | .resuming => ⟨p.moveCeiling, .normal, .armMoving⟩
  | .yielding | .yielded => ⟨p.yieldCeiling, .prompt, .armYield⟩
  | .sweeping => ⟨staticCeiling p * a.load / 100, .normal, if a.load = 100 then .brushCapacity else .brushLoad⟩
  | .fault => ⟨0, .prompt, .armFault⟩

/-- The water duty's own claim (R167). -/
def waterOwnClaim (p : WaterParams) (w : Water) : Claim :=
  if w.active && !w.dry then ⟨min 6000 (p.qMax * 1000000 / (w.rate * w.width)), .normal, .waterCapacity⟩
  else if w.dry && p.dryForbidden then ⟨0, .prompt, .tankEmpty⟩
  else freeClaim

/-- The urgency check after a change of claims: a combined urgency above the last PACE urgency asks for PACE at once
(R55, R70). -/
def checkUrgency (s : State) : State :=
  if higherUrgency (combinedUrgency s) s.pub.lastUrgency then requestCyclic .pace s else s

/-- The drive's claim set, with no check. -/
def setDriveClaim (s : State) : State := s.withDrive { s.drive with claim := some (formClaim s (driveOwnClaim s)) }

/-- An arm's claim set, with no check. -/
def setArmClaim (u : ArmUnit) (s : State) : State :=
  s.withArm u { s.arm u with claim := some (formClaim s (armOwnClaim (armParams s u) (s.arm u))) }

/-- The water claim set, with no check. -/
def setWaterClaim (s : State) : State :=
  s.withWater { s.water with claim := some (formClaim s (waterOwnClaim s.params.water s.water)) }

/-- The console's claim set, with no check (R67). -/
def setConsoleClaim (s : State) : State := s.withConsole { s.console with claim := some (formClaim s freeClaim) }

/-- An operation taken only where a duty is present. -/
def whenPresent (present : Bool) (f : State → State) (s : State) : State := if present then f s else s

/-- Every present duty's claim formed from its own state at this instant, as at SAFE entry and release (R68). -/
def setAllClaims (s : State) : State :=
  whenPresent s.duties.console setConsoleClaim <| whenPresent s.duties.water setWaterClaim
    <| whenPresent s.duties.armB (setArmClaim .b) <| whenPresent s.duties.armA (setArmClaim .a)
    <| whenPresent s.duties.drive setDriveClaim s

/-- The drive re-forms its claim (R66). -/
def reformDriveClaim (s : State) : State := checkUrgency (setDriveClaim s)

/-- An arm re-forms its claim (R145). -/
def reformArmClaim (u : ArmUnit) (s : State) : State := checkUrgency (setArmClaim u s)

/-- The water duty re-forms its claim (R167). -/
def reformWaterClaim (s : State) : State := checkUrgency (setWaterClaim s)

end Sys2Proof.Machine
end

