-- ==== Sys2Proof/Machine/ArmOps.lean ====
section
/-! DEFINITION. The shared operations of an arm unit (spec/07): the brush, changes of arm state, step lists, FAULT, and the way
out of it. -/

namespace Sys2Proof.Machine

/-! ## The brush (R142, R143) -/

/-- The brush runs when it is engaged and the arm state lets it (R142). -/
def brushRuns (a : Arm) : Bool :=
  a.engaged &&
    match a.state with
    | .deploying | .sweeping | .resuming | .yielding | .yielded => true
    | .stowed | .retracting | .fault => false

/-- The brush target at a travel speed (R142). -/
def brushTarget (p : ArmParams) (vt : Nat) : Nat := min p.maxRpm (p.baseRpm + vt * p.slope / 1000)

/-- The brush PWM of a target and a trim (R143). -/
def brushPwm (p : ArmParams) (target : Nat) (trim : Int) : Nat := clampNat 1000 ((target * p.kb / 1000 : Nat) + trim)

/-- The target set, with the instant at which it starts to expect motion (R113, R114). -/
def setTarget (now t : Nat) (a : Arm) : Arm :=
  { a with target := t, expectSince := noteExpect now (0 < a.target) (0 < t) a.expectSince }

/-- A brush that does not run: target, trim and PWM 0 (R143). -/
def stopBrush (now : Nat) (a : Arm) : Arm := { setTarget now 0 a with trim := 0, pwm := 0 }

/-- A brush that starts, or that a BRUSH ON step finds running: target and PWM formed, the trim as it stands (R135, R142,
R143). -/
def startBrush (p : ArmParams) (now : Nat) (a : Arm) : Arm :=
  let t := brushTarget p a.inputs.vt
  { setTarget now t a with pwm := brushPwm p t a.trim }

/-- The brush after an event that may start or stop it; `was` says whether it ran before (R142). -/
def settleBrush (p : ArmParams) (now : Nat) (was : Bool) (a : Arm) : Arm :=
  if brushRuns a then (if was then a else startBrush p now a) else stopBrush now a

/-- Step 6 of a period (R142, R143): target formed, trim moved when the channel is assigned and not LOST, PWM formed. -/
def periodBrush (p : ArmParams) (now : Nat) (channel : Option ChannelState) (measured : Nat) (a : Arm) : Arm :=
  if brushRuns a then
    let t := brushTarget p a.inputs.vt
    let trim :=
      if channel.isSome && channel != some .lost then
        clampInt (-150) 150 (a.trim + Int.tdiv (((t : Int) - measured) * p.kt) 256)
      else 0
    { setTarget now t a with trim := trim, pwm := brushPwm p t trim }
  else stopBrush now a

/-! ## Conditions (R126, R127, spec/07 7.3) -/

/-- The deploy condition. -/
def deployCondition (s : State) (u : ArmUnit) : Bool :=
  let i := (s.arm u).inputs
  i.heard && i.mode == .sweep && i.request == .deploy && !isSafe s && angleInRange s.inputs u

/-- The retract condition, as last read at a period (R131). -/
def retractCondition (i : ArmInputs) : Bool := !i.heard || i.mode != .sweep || i.request == .retract

/-- The reverse timer has run 300 ms or more at a period's expiry (R127). -/
def reversed300 (a : Arm) (expiry : Nat) : Bool :=
  match a.reverse with
  | some start => start + 300 ≤ expiry
  | none => false

/-- The yield condition. -/
def yieldCondition (s : State) (u : ArmUnit) (expiry : Nat) : Bool :=
  switchOn s.inputs (deflectFn u) || reversed300 (s.arm u) expiry

/-- Deflect off for 1000 ms (R127). -/
def deflectClear (s : State) (u : ArmUnit) : Bool :=
  !switchOn s.inputs (deflectFn u) &&
    match (s.arm u).deflectOff with
    | some t => t + 1000 ≤ ms s
    | none => false

/-! ## Changes of arm state (R129, R132, R144, R145) -/

/-- The arm's state set, with what each state brings: the load window timer runs only in SWEEPING (R144), STOWED disengages the
brush (R132), the brush starts or stops (R142). -/
def enterState (p : ArmParams) (nowUs nowMs : Nat) (st : ArmState) (a : Arm) : Arm :=
  settleBrush p nowUs (brushRuns a)
    { a with
      state := st
      loadDue := if st = .sweeping then some (nowMs + 500) else none
      engaged := if st = .stowed then false else a.engaged }

/-- A change of arm state, which re-forms the claim (R145). -/
def changeArm (u : ArmUnit) (st : ArmState) (s : State) : State :=
  reformArmClaim u (s.withArm u (enterState (armParams s u) s.micros (ms s) st (s.arm u)))

/-- The immediate ARM publication of a change of arm state (R55). -/
def askArm (u : ArmUnit) (s : State) : State := requestCyclic (armTopic u) s

/-! ## Steps (R133–R138) -/

/-- A step list made the running list: any running one is cut, its deadline and record discarded, and brush-on run cleared
(R133). -/
def loadList (p : ArmParams) (l : ListName) (a : Arm) : Arm :=
  { a with list := l, remaining := (listSteps p l).length, deadline := none, record := .none, brushOnRun := false }

/-- The running list ended: list NONE and no current step (R133). -/
def dropList (a : Arm) : Arm := { a with list := .none, remaining := 0, deadline := none, record := .none }

/-- The step in progress counted as complete: its deadline and record go (R134, R138). -/
def countStep (a : Arm) : Arm := { a with remaining := a.remaining - 1, deadline := none, record := .none }

/-- Whether an angle reading completes a WAIT_ANGLE step: strictly above or strictly below (R136). -/
def angleMet (below : Bool) (threshold reading : Nat) : Bool := if below then reading < threshold else threshold < reading

/-- Whether any WAIT_WATER rule stores WATER_IN (R137). -/
def hearsWater (p : Picture) : Bool :=
  ruleNumbers.any fun i => p.table[i].inUse && ruleStores p.table[i] && ruleLabel p.table[i] == .waterIn

/-- WAIT_WATER's condition: no WATER_IN rule stores, or a FRESH WATER_IN slot holds PRIMING or SPRAYING (R19, R137). -/
def waterMet (p : Picture) : Bool :=
  !hearsWater p ||
    (slotsOf p .waterIn).any fun n =>
      match p.slots[n].record with
      | some r =>
        r.age == .fresh && headerTopic r.header == topicNumber .water
          && (byteAt r.payload 0 == waterStateCode .priming || byteAt r.payload 0 == waterStateCode .spraying)
      | none => false

/-- WAIT_BRUSH's condition: no channel, or measured × 100 at least target × 80 (R137). -/
def brushMet (s : State) (u : ArmUnit) : Bool :=
  (channelOf s.inputs (brushFn u)).isNone || (s.arm u).target * 80 ≤ fnValue s (brushFn u) * 100

/-- WAIT_DIST's record at an instant: the TRAVEL distance when the slot is heard (R136). -/
def distanceRecord (s : State) : StepRecord :=
  match travelRecord s with
  | some r => .distance (travelDistance r.payload)
  | none => .none

/-- The instant at which a wait step begun now times out (R138). -/
def stepLimit (s : State) (u : ArmUnit) : Option Nat := some (ms s + (armParams s u).stepTimeout * 100)

/-- A step begins: VALVE and BRUSH act, a wait step sets its deadline and record (R135–R138). -/
def beginStep (u : ArmUnit) (st : Step) (s : State) : State :=
  let a := s.arm u
  let p := armParams s u
  match st with
  | .valve line on => s.withArm u { a with levels := a.levels.set line on }
  | .brush true =>
    let b := { a with engaged := true, brushOnRun := true }
    s.withArm u (if brushRuns b then startBrush p s.micros b else stopBrush s.micros b)
  | .brush false => s.withArm u (stopBrush s.micros { a with engaged := false })
  | .waitAngle _ _ => s.withArm u { a with deadline := stepLimit s u }
  | .waitTime _ => s.withArm u { a with record := .time (ms s) }
  | .waitDist _ => s.withArm u { a with deadline := stepLimit s u, record := distanceRecord s }
  | .waitWater => s.withArm u { a with deadline := stepLimit s u }
  | .waitBrush => s.withArm u { a with deadline := stepLimit s u }

/-- Whether a step completes at the instant it begins (R134–R137). -/
def completesAtOnce (u : ArmUnit) (st : Step) (s : State) : Bool :=
  match st with
  | .valve _ _ => true
  | .brush _ => true
  | .waitAngle below threshold => angleMet below threshold (angleValue s.inputs u)
  | .waitTime units => units == 0
  | .waitDist mm => mm == 0 && (s.arm u).record != .none
  | .waitWater => waterMet s.picture
  | .waitBrush => brushMet s u

/-- The steps of a list run from one instant until the list rests at a wait step or ends; the answer says whether it ended
(R134). -/
def runSteps (u : ArmUnit) : List Step → State → State × Bool
  | [], s => (s, true)
  | st :: rest, s =>
    let s1 := beginStep u st s
    if completesAtOnce u st s1 then runSteps u rest (s1.withArm u (countStep (s1.arm u))) else (s1, false)

/-- An ended list dropped. -/
def endList (u : ArmUnit) (r : State × Bool) : State × Bool :=
  (if r.2 then r.1.withArm u (dropList (r.1.arm u)) else r.1, r.2)

/-- A transition that starts a list (R133): the running list cut, the arm in its new state, the list run from its first step,
and the change published when the list has come to rest. The answer says whether the list ended. -/
def startList (u : ArmUnit) (st : ArmState) (l : ListName) (s : State) : State × Bool :=
  let loaded := s.withArm u (loadList (armParams s u) l (s.arm u))
  let r := endList u (runSteps u (listSteps (armParams s u) l) (changeArm u st loaded))
  (askArm u r.1, r.2)

/-- A change to a state that runs no list (R129, R131, R132). -/
def restIn (u : ArmUnit) (st : ArmState) (s : State) : State := askArm u (changeArm u st s)

/-- Into RETRACTING with the RETRACT list; when it is done, STOWED (R132). -/
def startRetract (u : ArmUnit) (s : State) : State :=
  let r := startList u .retracting .retract s
  if r.2 then restIn u .stowed r.1 else r.1

/-- The end of the YIELD list: RETRACTING if the retract condition holds as last read, YIELDED otherwise (R131). -/
def finishYield (u : ArmUnit) (s : State) : State :=
  if retractCondition (s.arm u).inputs then startRetract u s else restIn u .yielded s

/-- Into YIELDING with the YIELD list (R129, R130). -/
def startYield (u : ArmUnit) (s : State) : State :=
  let r := startList u .yielding .yield s
  if r.2 then finishYield u r.1 else r.1

/-- Into DEPLOYING with the DEPLOY list; when it is done, SWEEPING (R128, R129). -/
def startDeploy (u : ArmUnit) (s : State) : State :=
  let r := startList u .deploying .deploy s
  if r.2 then restIn u .sweeping r.1 else r.1

/-- Into RESUMING with the RESUME list; when it is done, SWEEPING (R129, R131). -/
def startResume (u : ArmUnit) (s : State) : State :=
  let r := startList u .resuming .resume s
  if r.2 then restIn u .sweeping r.1 else r.1

/-- Where a done list takes the arm (R129, R131, R132). -/
def finishList (u : ArmUnit) (l : ListName) (s : State) : State :=
  match l with
  | .none => s
  | .deploy => restIn u .sweeping s
  | .resume => restIn u .sweeping s
  | .retract => restIn u .stowed s
  | .yield => finishYield u s

/-- The wait step in progress completes: the next steps run, and a list that ends takes the arm to its end state (R134). -/
def completeStep (u : ArmUnit) (s : State) : State :=
  let l := (s.arm u).list
  let counted := s.withArm u (countStep (s.arm u))
  let r := endList u (runSteps u (stepsLeft (armParams counted u) (counted.arm u)) counted)
  if r.2 then finishList u l r.1 else r.1

/-- The wait step an arm has in progress, none when it runs no list. -/
def stepInProgress (s : State) (u : ArmUnit) : Option Step := (stepsLeft (armParams s u) (s.arm u)).head?

/-! ## FAULT (R139–R141) -/

/-- The hold-set levels of an arm's lines; a line the image does not assign stays OFF (R124, R140). -/
def holdLevels (h : HoldSet) (p : ArmParams) : Vector Bool 4 :=
  Vector.ofFn fun i =>
    match p.lines[i] with
    | some n => h.valves.getLsbD n
    | none => false

/-- Entry to FAULT (R140). -/
def faultArm (u : ArmUnit) (cause : ArmFault) (s : State) : State :=
  let a := stopBrush s.micros { dropList (s.arm u) with engaged := false, brushOnRun := false }
  let b := { a with levels := holdLevels s.safe.hold (armParams s u), loadDue := none, cause := cause, state := .fault }
  askArm u (reformArmClaim u (s.withArm u b))

/-- Whether a fault event moves the arm: any state but STOWED and FAULT (R139, R140). -/
def armActive (a : Arm) : Bool := a.state != .stowed && a.state != .fault

/-- A fault event (R139, R140): an active arm enters FAULT; a STOWED or FAULT arm stays. -/
def faultEvent (u : ArmUnit) (cause : ArmFault) (s : State) : State :=
  if armPresent s u && armActive (s.arm u) then faultArm u cause s else s

/-- A FAULT arm freed: its cause NONE, RETRACTING from the first step (R141). -/
def freeArm (u : ArmUnit) (s : State) : State := startRetract u (s.withArm u { s.arm u with cause := .none })

end Sys2Proof.Machine
end

