-- ==== Sys2Proof/Machine/SafeOps.lean ====
section
/-! DEFINITION. The shared operations of the water duty's state (spec/08, 8.4) and of Safe Control (spec/10): cause reports, SAFE
entry and release, and CLEAR with its items. -/

namespace Sys2Proof.Machine

/-! ## Changes of water state (R156–R163) -/

/-- Whether a water state runs the pump. -/
def waterRuns (st : WaterState) : Bool := st == .priming || st == .spraying

/-- The pump duty set, with the instant at which it starts to expect motion (R114, R165). -/
def setPump (now d : Nat) (w : Water) : Water :=
  { w with pump := d, expectSince := noteExpect now (0 < w.pump) (0 < d) w.expectSince }

/-- Setpoint, pump, trim, saturated and valves at rest, as in OFF, IDLE, DRY and FAULT (R161–R166). -/
def restWater (now : Nat) (w : Water) : Water :=
  { setPump now 0 w with q := 0, trim := 0, saturated := false, valves := Vector.replicate 4 false }

/-- The water state set (R156–R160): leaving PRIMING drops the priming start, and a state without flow rests. -/
def enterWater (now : Nat) (st : WaterState) (w : Water) : Water :=
  let w1 := { w with state := st, priming := none }
  if waterRuns st then w1 else restWater now w1

/-- A change of water state between periods: entered, the claim re-formed, WATER asked for (spec/08, 8.4). -/
def changeWater (st : WaterState) (s : State) : State :=
  requestCyclic .water (reformWaterClaim (s.withWater (enterWater s.micros st s.water)))

/-! ## Causes (R182, R183) -/

/-- A cause added to a set. -/
def addCause (c : CauseSet) : Cause → CauseSet
  | .haltButton => { c with haltButton := true }
  | .peerHalt => { c with peerHalt := true }
  | .linkMute => { c with linkMute := true }
  | .addressConflict => { c with addressConflict := true }
  | .configBad => { c with configBad := true }

/-- An own cause asks for a HALT; PEER_HALT is not one (R182, R186). -/
def ownCause : Cause → Bool
  | .peerHalt => false
  | .haltButton | .linkMute | .addressConflict | .configBad => true

/-- Whether CLEAR can release a cause (R182). -/
def releasable : Cause → Bool
  | .haltButton | .peerHalt | .linkMute => true
  | .addressConflict | .configBad => false

/-- Whether a cause's condition has gone (R182). -/
def conditionGone (s : State) : Cause → Bool
  | .haltButton => !haltPressed s
  | .peerHalt => true
  | .linkMute => s.link.state == .on
  | .addressConflict => false
  | .configBad => false

/-! ## SAFE entry (R184) -/

/-- The drive at SAFE entry: RUNNING to HALTING, STANDING to HELD, nothing else changed (R90). -/
def safeDrive (d : Drive) : Drive :=
  { d with
    state :=
      match d.state with
      | .running => .halting
      | .standing => .held
      | .parked => .parked
      | .halting => .halting
      | .held => .held }

/-- The water duty at SAFE entry: active becomes no; PRIMING, SPRAYING and IDLE go OFF (R161). -/
def safeWater (s : State) : State :=
  let s1 := s.withWater { s.water with active := false }
  match s.water.state with
  | .priming | .spraying | .idle => changeWater .off s1
  | .off | .dry | .fault => s1

/-- SAFE entry, the flag being set: every present duty's claim replaced and the rise of urgency asked for, then the drive,
the arms and the water duty moved (R68, R90, R140, R161, R184). -/
def safeEntry (s : State) : State :=
  let claimed := checkUrgency (setAllClaims s)
  let driven := claimed.withDrive (safeDrive claimed.drive)
  whenPresent s.duties.water safeWater (faultEvent .b .stationSafe (faultEvent .a .stationSafe driven))

/-- A cause report (R183): a cause already held changes nothing; a new one is added, makes the entry if the flag was clear,
and asks for a HALT if it is an own cause (R185). -/
def reportCause (c : Cause) (s : State) : State :=
  if hasCause s.safe.causes c then s
  else
    let added := s.withSafe { s.safe with causes := addCause s.safe.causes c }
    let entered := if isSafe s then added else safeEntry added
    if ownCause c then requestEvent .halt (haltRecord c) entered else entered

/-! ## Release (R188–R190) -/

/-- The empty cause set. -/
def noCauses : CauseSet := ⟨false, false, false, false, false⟩

/-- Whether a held cause stands in the way of a release: not releasable, or its condition not gone (R188). -/
def causeStands (s : State) (c : Cause) : Bool :=
  hasCause s.safe.causes c && !(releasable c && conditionGone s c)

/-- Whether the drive's speed allows a release (R188). -/
def speedAllows (s : State) : Bool := !s.duties.drive || s.drive.vm < 50

/-- Whether a RELEASE_SAFE item taken while SAFE is granted (R188). -/
def releaseGranted (s : State) : Bool := !allCauses.any (causeStands s) && speedAllows s

/-- The cause a RELEASE_REFUSED notice names: the first that stands, or, when the speed alone refused, the first held (R190). -/
def refusalCause (s : State) : Cause :=
  match allCauses.find? (causeStands s) with
  | some c => c
  | none => (allCauses.find? (hasCause s.safe.causes)).getD .haltButton

/-- An arm at SAFE release: FAULT with cause STATION_SAFE goes RETRACTING (R141, R189). -/
def releaseArm (u : ArmUnit) (s : State) : State :=
  if armPresent s u && (s.arm u).state == .fault && (s.arm u).cause == .stationSafe then freeArm u s else s

/-- A granted release (R189): the cause set emptied, every claim formed anew, the STATION_SAFE arms freed. -/
def safeRelease (s : State) : State :=
  let cleared := s.withSafe { s.safe with causes := noCauses }
  releaseArm .b (releaseArm .a (checkUrgency (setAllClaims cleared)))

/-- A RELEASE_SAFE item (R188, R190). -/
def takeRelease (s : State) : State :=
  if !isSafe s then s
  else if releaseGranted s then safeRelease s
  else requestNotice .releaseRefused (causeNumber (refusalCause s)) 0 s

/-! ## LATCHES and arm items (R160, R192, R193) -/

/-- A LATCHES item: every latched flag cleared, and a FAULT water duty moved to OFF (R160, R192). DESIGN CHOICE: the spec gives no
order inside the item; the flags are cleared first, so a move that rebuilds a pending WATER leaves the late flag latched (R55,
R64; notes/assumptions/28.md). -/
def takeLatches (s : State) : State :=
  let cleared := clearFlags s
  if s.duties.water && s.water.state == .fault then changeWater .off cleared else cleared

/-- An arm item: a FAULT arm freed while the station is OPERATING and not SAFE (R141, R193). -/
def takeArmItem (u : ArmUnit) (s : State) : State :=
  if operating s && armPresent s u && (s.arm u).state == .fault && !isSafe s then freeArm u s else s

/-- A CLEAR taken by Safe Control: its items in the order RELEASE_SAFE, LATCHES, ARM_A, ARM_B (R187). -/
def takeClear (i : ClearItems) (s : State) : State :=
  whenPresent i.armB (takeArmItem .b) <| whenPresent i.armA (takeArmItem .a)
    <| whenPresent i.latches takeLatches <| whenPresent i.releaseSafe takeRelease s

end Sys2Proof.Machine
end

