-- ==== Sys2Proof/Machine/ConsoleDuty.lean ====
section
/-! DEFINITION. The console duty (spec/09): its period, the buttons, the reset hold timer and the notice lamp. -/

namespace Sys2Proof.Machine

open Host (Outcome)

/-! ## Readings (R171–R173) -/

/-- The mode of the two mode switches (R171). -/
def consoleMode (mode1 mode2 : Bool) : Mode :=
  match mode1, mode2 with
  | false, false => .park
  | true, false => .transport
  | false, true => .sweep
  | true, true => .park

/-- The pedal after the deadband (R172). -/
def consolePedal (deadband value : Nat) : Nat :=
  if value ≤ deadband then 0 else (value - deadband) * 1000 / (1000 - deadband)

/-- The rate from the knob: knob × M / 1000 rounded to the nearest 10 mL/m² (R173). -/
def consoleRate (rateMax knob : Nat) : Nat := (knob * rateMax + 5000) / 10000 * 10

/-- One request of the four replaced (R174). -/
def setRequest (r : ArmRequests) (p : Position) (x : ArmRequest) : ArmRequests :=
  match p with
  | .left => { r with left := x }
  | .right => { r with right := x }
  | .main => { r with main := x }
  | .aux => { r with aux := x }

/-- Every request RETRACT (R174). -/
def allRetract : ArmRequests := ⟨.retract, .retract, .retract, .retract⟩

/-- Steps 1 to 4 of a period (R170–R174). -/
def consoleReadings (p : ConsoleParams) (i : Inputs) (c : Console) : Console :=
  let mode := consoleMode (switchOn i .mode1) (switchOn i .mode2)
  { c with
    mode := mode
    modeInvalid := switchOn i .mode1 && switchOn i .mode2
    requests := if c.mode = .sweep ∧ mode ≠ .sweep then allRetract else c.requests
    direction := if switchOn i .dir then .reverse else .forward
    pedal := consolePedal p.deadband (pedalValue i)
    rate := consoleRate p.rateMax (knobValue i) }

/-! ## CLEARs (R177) -/

/-- The target of the console's CLEARs: all stations. -/
def allStations : Nat := 15

/-- The console asks for a CLEAR (R177). -/
def askClear (i : ClearItems) (s : State) : State := requestEvent .clear (clearRecord allStations i) s

/-- The items of the RESET press (R177). -/
def resetItems : ClearItems := ⟨true, true, false, false⟩

/-- The items of the long press (R177). -/
def holdItems : ClearItems := ⟨false, false, true, true⟩

/-- The reset hold timer has run 2000 ms (R177). -/
def holdElapsed (s : State) : Bool :=
  match s.console.resetHold with
  | some start => start + 2000 ≤ ms s
  | none => false

/-- The reset hold timer's end (R177): the second CLEAR if the pedal is 0, and the timer stops. -/
def endHold (s : State) : State :=
  let stopped := s.withConsole { s.console with resetHold := none }
  if s.console.pedal = 0 then askClear holdItems stopped else stopped

/-- The check of the reset hold timer, at a console period (R170) or at its own expiry (R177). DESIGN CHOICE: at a console period
'the pedal of the most recent period' is the pedal that this period has just formed (notes/assumptions/29.md). -/
def checkHold (s : State) : State :=
  if holdElapsed s && switchOn s.inputs .resetButton then endHold s else s

/-- A press of RESET_BUTTON (R177): with the pedal at 0, a CLEAR and the reset hold timer. -/
def pressReset (s : State) : State :=
  if s.console.pedal = 0 then
    askClear resetItems (s.withConsole { s.console with resetHold := some (ms s) })
  else s

/-- A release of RESET_BUTTON stops the timer (R177). -/
def releaseReset (s : State) : State := s.withConsole { s.console with resetHold := none }

/-- A press of an arm button (R174). -/
def pressArm (p : Position) (x : ArmRequest) (s : State) : State :=
  s.withConsole { s.console with requests := setRequest s.console.requests p x }

/-! ## The period (R170, R171, R176) -/

/-- The HALT button check (R176). -/
def checkHalt (s : State) : State := if haltPressed s then reportCause .haltButton s else s

/-- A console period: the readings, the notice of a mode newly invalid, and, in OPERATING, the two checks (R170), the second of
them on the pedal formed here (DESIGN CHOICE, notes/assumptions/29.md). -/
def consolePeriod (expiry : Nat) (s : State) : State :=
  let read := s.withConsole { consoleReadings s.params.console s.inputs s.console with due := some (expiry + 20) }
  let noticed :=
    if read.console.modeInvalid && !s.console.modeInvalid then requestNotice .modeInvalid 0 0 read else read
  if operating s then checkHold (checkHalt noticed) else noticed

/-- CONSOLE_PERIOD_EXPIRY (R170). -/
def execConsolePeriodExpiry (s : State) : Outcome State Fault Refusal :=
  .next (match s.console.due with
    | some t => if dutiesRun s && s.duties.console && decide (t ≤ ms s) then consolePeriod t s else s
    | none => s)

/-- RESET_HOLD_TIMER_EXPIRY (R177). -/
def execResetHoldTimerExpiry (s : State) : Outcome State Fault Refusal := .next (checkHold s)

/-- LAMP_DEADLINE (R178). -/
def execLampDeadline (s : State) : Outcome State Fault Refusal :=
  .next (if due (ms s) s.console.lampDeadline then s.withConsole { s.console with lampDeadline := none } else s)

end Sys2Proof.Machine
end

