-- ==== Sys2Proof/Machine/LocalInputs.lean ====
section
/-! DEFINITION. The Input Conditioner (spec/06): pulse channels, analog inputs and switches, and what each hands its reader. -/

namespace Sys2Proof.Machine

open Host (Outcome)

/-! ## Pulse channels (R108–R116) -/

/-- A state with one pulse channel replaced. -/
def setChannel (ch : Fin 6) (c : PulseChannel) (s : State) : State :=
  s.withInputs { s.inputs with pulse := s.inputs.pulse.set ch c }

/-- Whether an edge is taken: there is no last accepted edge, or the minimum spacing has passed since it (R108). -/
def edgeAccepted (k : PulseConst) (now : Nat) (c : PulseChannel) : Bool :=
  match c.lastEdge with
  | some e => k.minSpacing ≤ interval now e
  | none => true

/-- TRACKING with the period from the previous accepted edge, without one when there is none (R111). -/
def trackFrom (k : PulseConst) (now : Nat) (c : PulseChannel) : PulseChannel :=
  match c.lastEdge with
  | some e =>
    { c with
      state := .tracking
      period := some (interval now e)
      value := rateOf k.k (interval now e)
      lastEdge := some now
      recovery := 0 }
  | none => { c with state := .tracking, period := none, value := 0, lastEdge := some now, recovery := 0 }

/-- The recovery count after an accepted edge in LOST (R115). -/
def recoveryCount (k : PulseConst) (now : Nat) (c : PulseChannel) : Nat :=
  match c.lastEdge with
  | some e => if c.recovery ≠ 0 ∧ interval now e ≤ windowMicros k then c.recovery + 1 else 1
  | none => 1

/-- A channel at an accepted edge (R111, R115). -/
def acceptEdge (k : PulseConst) (now : Nat) (c : PulseChannel) : PulseChannel :=
  match c.state with
  | .stopped => { c with state := .tracking, period := none, value := 0, lastEdge := some now }
  | .tracking => trackFrom k now c
  | .oneMissing => trackFrom k now c
  | .lost =>
    if 8 ≤ recoveryCount k now c then trackFrom k now c
    else { c with period := none, value := 0, lastEdge := some now, recovery := recoveryCount k now c }

/-- The wheel distance at an accepted WHEEL edge (R110). -/
def addDistance (k : PulseConst) (i : Inputs) : Inputs :=
  let total := i.remainder + k.k / 1000
  { i with distance := i.distance + BitVec.ofNat 32 (total / 1000), remainder := total % 1000 }

/-- PULSE_EDGE (R107, R108, R110, R111). -/
def execPulseEdge (ch : Fin 6) (s : State) : Outcome State Fault Refusal :=
  let c := s.inputs.pulse[ch]
  let k := pulseConst s.params c.fn
  .next (if dutiesRun s && c.fn != .unused && edgeAccepted k s.micros c then
    (let moved := setChannel ch (acceptEdge k s.micros c) s
     if c.fn = .wheel then moved.withInputs (addDistance k moved.inputs) else moved) else s)

/-- The time since a channel's last accepted edge. -/
def sinceEdge (now : Nat) (c : PulseChannel) : Option Nat := c.lastEdge.map (interval now)

/-- Whether a stretch of time has come. -/
def reached (limit : Nat) : Option Nat → Bool
  | some t => limit ≤ t
  | none => false

/-- Whether the missing deadline E + 2P, which exists only below W, has come (R112). -/
def missingDue (k : PulseConst) (now : Nat) (c : PulseChannel) : Bool :=
  match c.period with
  | some p => 2 * p < windowMicros k && reached (2 * p) (sinceEdge now c)
  | none => false

/-- The stop deadline after the last accepted edge: 3P or W, whichever is earlier; W with no period (R112). -/
def stopLimit (k : PulseConst) (c : PulseChannel) : Nat :=
  match c.period with
  | some p => min (3 * p) (windowMicros k)
  | none => windowMicros k

/-- MISSING_DEADLINE (R112). -/
def execMissingDeadline (ch : Fin 6) (s : State) : Outcome State Fault Refusal :=
  let c := s.inputs.pulse[ch]
  .next (if dutiesRun s && c.state == .tracking && missingDue (pulseConst s.params c.fn) s.micros c
    then setChannel ch { c with state := .oneMissing } s else s)

/-- The arm unit that reads a brush channel. -/
def brushReader : PulseFn → Option ArmUnit
  | .brushA => some .a
  | .brushB => some .b
  | .unused | .wheel | .engine | .flow => none

/-- A channel with nothing to measure, in STOPPED or LOST: no period, value 0, recovery count 0 (R112, R115). -/
def silence (st : ChannelState) (c : PulseChannel) : PulseChannel :=
  { c with state := st, period := none, value := 0, recovery := 0 }

/-- Entry to LOST (R115): value 0, the sensor-lost flag, a NOTICE SENSOR_LOST, and a brush reader's fault (R139). -/
def loseChannel (ch : Fin 6) (s : State) : State :=
  let c := s.inputs.pulse[ch]
  let silent := setChannel ch (silence .lost c) s
  let flagged := silent.withInputs { silent.inputs with sensorLost := true }
  let noticed := requestNotice .sensorLost ch.val (pulseFnCode c.fn) flagged
  match brushReader c.fn with
  | some u => faultEvent u .brushSensor noticed
  | none => noticed

/-- STOP_DEADLINE (R112, R113): LOST while motion is expected, STOPPED otherwise. -/
def execStopDeadline (ch : Fin 6) (s : State) : Outcome State Fault Refusal :=
  let c := s.inputs.pulse[ch]
  .next (if dutiesRun s && (c.state == .tracking || c.state == .oneMissing)
      && reached (stopLimit (pulseConst s.params c.fn) c) (sinceEdge s.micros c) then
    (if expectMotion s c.fn then loseChannel ch s else setChannel ch (silence .stopped c) s) else s)

/-- The instant from which a STOPPED channel's window runs: the later of its last accepted edge and the instant its input last
began to expect motion (R114). -/
def watchFrom (s : State) (c : PulseChannel) : Option Nat :=
  match expectSince s c.fn, c.lastEdge with
  | some x, some e => some (max x e)
  | some x, none => some x
  | none, _ => none

/-- WATCH_DEADLINE (R114). -/
def execWatchDeadline (ch : Fin 6) (s : State) : Outcome State Fault Refusal :=
  let c := s.inputs.pulse[ch]
  .next (if dutiesRun s && c.state == .stopped && expectMotion s c.fn
      && reached (windowMicros (pulseConst s.params c.fn)) ((watchFrom s c).map (interval s.micros))
    then loseChannel ch s else s)

/-! ## Analog inputs (R117–R119) -/

/-- Whether a conversion is within 20–980 (R118). -/
def conversionGood (reading : Nat) : Bool := 20 ≤ reading && reading ≤ 980

/-- An input at a conversion (R117, R118). DEDUCED: the conversion that brings an input back to IN_RANGE is noted as its last good
reading (notes/assumptions/30.md). -/
def convert (reading : Nat) (a : AnalogInput) : AnalogInput :=
  if conversionGood reading then
    if a.inRange then { a with reading := reading, lastGood := some reading }
    else if 100 ≤ a.run + 1 then { a with reading := reading, inRange := true, run := a.run + 1, lastGood := some reading }
    else { a with reading := reading, run := a.run + 1 }
  else { a with reading := reading, inRange := false, run := 0 }

/-- Whether a conversion is an entry to OUT_OF_RANGE (R118). -/
def leavesRange (reading : Nat) (a : AnalogInput) : Bool := a.inRange && !conversionGood reading

/-- The NOTICE PEDAL_RANGE of an entry to OUT_OF_RANGE (R119, R172). -/
def pedalNotice (reading : Nat) (s : State) : State := requestNotice .pedalRange (reading / 4) 0 s

/-- Whether the step an arm has in progress is a WAIT_ANGLE that this reading completes (R136). -/
def angleCompletes (u : ArmUnit) (reading : Nat) (s : State) : Bool :=
  match stepInProgress s u with
  | some (.waitAngle below threshold) => angleMet below threshold reading
  | some (.valve _ _) | some (.brush _) | some (.waitTime _) | some (.waitDist _) | some .waitWater | some .waitBrush => false
  | none => false

/-- The WAIT_ANGLE step's compare with a conversion (R136). -/
def compareAngle (u : ArmUnit) (reading : Nat) (s : State) : State :=
  if armPresent s u && angleCompletes u reading s then completeStep u s else s

/-- What an angle conversion does to its arm: the fault of an entry to OUT_OF_RANGE (R139) and the compare (R136). Which of the
two comes first when one conversion brings both the spec does not say: a free value (notes/assumptions/9.md). -/
def handAngle (u : ArmUnit) (left : Bool) (reading : Nat) (s : State) : State :=
  if left then
    if Config.angleFaultFirst s.micros then compareAngle u reading (faultEvent u .angleRange s)
    else faultEvent u .angleRange (compareAngle u reading s)
  else compareAngle u reading s

/-- What a conversion hands the reading duty (R119, R136, R139). -/
def handConversion (fn : AnalogFn) (left : Bool) (reading : Nat) (s : State) : State :=
  match fn with
  | .pedal => if left then pedalNotice reading s else s
  | .angleA => handAngle .a left reading s
  | .angleB => handAngle .b left reading s
  | .rateKnob | .tank | .unused => s

/-- ANALOG_CONVERSION (R117): once a millisecond for an assigned input. -/
def execAnalogConversion (ai : Fin 4) (reading : Permille) (s : State) : Outcome State Fault Refusal :=
  let a := s.inputs.analog[ai]
  .next (if dutiesRun s && a.fn != .unused && decide (a.due ≤ ms s) then
    handConversion a.fn (leavesRange reading.val a) reading.val
      (s.withInputs { s.inputs with analog := s.inputs.analog.set ai { convert reading.val a with due := a.due + 1 } })
    else s)

/-! ## Switches (R120, R127, R130, R174, R177) -/

/-- A switch at a sample (R120): its run grows by a millisecond while the line differs from the taken level, and at 20 the line's
level is taken. -/
def sampleSwitch (on : Bool) (x : SwitchInput) : SwitchInput :=
  if on = x.level then { x with run := 0 }
  else if 20 ≤ x.run + 1 then { x with level := on, run := 0 }
  else { x with run := x.run + 1 }

/-- A press of a deflect switch (R127, R130): the deflect-off instant goes, and a DEPLOYING, SWEEPING or RESUMING arm yields.
DESIGN CHOICE, unsafe (notes/assumptions/31.md): R130 says that a press and a period expiry that come together give the same
result in either order, but a period taken first that newly reads the retract condition leaves the arm RETRACTING (R129, R132)
and a press taken first leaves it YIELDING; which result is meant is open, and the order is the queue's. -/
def pressDeflect (u : ArmUnit) (s : State) : State :=
  let noted := s.withArm u { s.arm u with deflectOff := none }
  match (s.arm u).state with
  | .deploying | .sweeping | .resuming => if operating s then startYield u noted else noted
  | .stowed | .yielding | .yielded | .retracting | .fault => noted

/-- A release of a deflect switch (R127). -/
def releaseDeflect (u : ArmUnit) (s : State) : State := s.withArm u { s.arm u with deflectOff := some (ms s) }

/-- A change of a taken level handed to the reading duty (R120). -/
def handSwitch (fn : SwitchFn) (on : Bool) (s : State) : State :=
  match fn with
  | .deflectA => if on then pressDeflect .a s else releaseDeflect .a s
  | .deflectB => if on then pressDeflect .b s else releaseDeflect .b s
  | .resetButton => if on then (if operating s then pressReset s else s) else releaseReset s
  | .deploy p => if on && operating s then pressArm p .deploy s else s
  | .retract p => if on && operating s then pressArm p .retract s else s
  | .unused | .mode1 | .mode2 | .dir | .haltButton => s

/-- SWITCH_SAMPLE (R120): once a millisecond for an assigned switch; the switch is on while its line is low. -/
def execSwitchSample (si : Fin 8) (low : Bool) (s : State) : Outcome State Fault Refusal :=
  let x := s.inputs.switches[si]
  let y := sampleSwitch low x
  .next (if dutiesRun s && x.fn != .unused && decide (x.due ≤ ms s) then
    (let sampled := s.withInputs { s.inputs with switches := s.inputs.switches.set si { y with due := x.due + 1 } }
     if y.level = x.level then sampled else handSwitch x.fn y.level sampled) else s)

end Sys2Proof.Machine
end

