-- ==== Sys2Proof/Machine/BrushArms.lean ====
section
/-! DEFINITION. The arm units' commands (spec/07): the control period, the end of a WAIT_TIME, a step deadline and a load
window. -/

namespace Sys2Proof.Machine

open Host (Outcome)

/-! ## Step 1 and 2: inputs and the reverse timer (R126, R127) -/

/-- The inputs an arm reads at a period (R126). -/
def readArmInputs (s : State) (p : ArmParams) : ArmInputs where
  heard := (operatorRecord s).isSome
  mode := match operatorRecord s with
    | some r => modeOfCode (byteAt r.payload 0)
    | none => .park
  request := match operatorRecord s with
    | some r => operatorRequest r.payload p.position
    | none => .hold
  vt := match travelRecord s with
    | some r => travelSpeed r.payload
    | none => 0
  direction := match travelRecord s with
    | some r => travelDirection r.payload
    | none => none

/-- The reverse timer at a period's expiry (R127). -/
def reverseTimer (expiry : Nat) (direction : Option Direction) (t : Option Nat) : Option Nat :=
  if direction = some .reverse then some (t.getD expiry) else none

/-- Steps 1 and 2 of a period. -/
def readArm (u : ArmUnit) (expiry : Nat) (s : State) : State :=
  let i := readArmInputs s (armParams s u)
  s.withArm u { s.arm u with
    inputs := i
    reverse := reverseTimer expiry i.direction (s.arm u).reverse
    due := some (expiry + 20) }

/-! ## Step 3: the wait step in progress (R136, R137) -/

/-- WAIT_DIST at a period: completes when the distance read, less the start, mod 2^24, is at least its argument (R136). -/
def distanceMet (s : State) (start mm : Nat) : Bool :=
  match travelRecord s with
  | some r => decide (mm ≤ (travelDistance r.payload + 2 ^ 24 - start % 2 ^ 24) % 2 ^ 24)
  | none => false

/-- WAIT_DIST's work at a period: a start distance not yet recorded is recorded, which completes a distance of 0; a recorded one
is compared (R136). -/
def checkDistance (u : ArmUnit) (mm : Nat) (s : State) : State :=
  match (s.arm u).record with
  | .distance start => if distanceMet s start mm then completeStep u s else s
  | .none | .time _ =>
    let noted := s.withArm u { s.arm u with record := distanceRecord s }
    if mm == 0 && distanceRecord s != .none then completeStep u noted else noted

/-- Step 3 of a period. -/
def checkStep (u : ArmUnit) (s : State) : State :=
  match stepInProgress s u with
  | some (.waitDist mm) => checkDistance u mm s
  | some .waitWater => if waterMet s.picture then completeStep u s else s
  | some .waitBrush => if brushMet s u then completeStep u s else s
  | some (.valve _ _) | some (.brush _) | some (.waitAngle _ _) | some (.waitTime _) => s
  | none => s

/-! ## Steps 4 to 6 (R128–R132, R139, R142, R143) -/

/-- Step 4: an active arm whose angle input is OUT_OF_RANGE enters FAULT (R139). -/
def checkAngle (u : ArmUnit) (s : State) : State :=
  if angleInRange s.inputs u then s else faultEvent u .angleRange s

/-- A STOWED arm at a period (R128): the deploy condition sets L to 100 and starts DEPLOY. -/
def stowedPeriod (u : ArmUnit) (s : State) : State :=
  if deployCondition s u then startDeploy u (s.withArm u { s.arm u with load := 100 }) else s

/-- A DEPLOYING, SWEEPING or RESUMING arm at a period (R129). -/
def workingPeriod (u : ArmUnit) (expiry : Nat) (s : State) : State :=
  if retractCondition (s.arm u).inputs then startRetract u s
  else if yieldCondition s u expiry then startYield u s
  else s

/-- A YIELDED arm at a period (R131). -/
def yieldedPeriod (u : ArmUnit) (s : State) : State :=
  if retractCondition (s.arm u).inputs then startRetract u s
  else if deflectClear s u && (s.arm u).inputs.direction == some .forward then startResume u s
  else s

/-- Step 5: at most one transition (R128–R132). -/
def armTransition (u : ArmUnit) (expiry : Nat) (s : State) : State :=
  match (s.arm u).state with
  | .stowed => stowedPeriod u s
  | .deploying | .sweeping | .resuming => workingPeriod u expiry s
  | .yielding => s
  | .yielded => yieldedPeriod u s
  | .retracting => if deployCondition s u then startDeploy u s else s
  | .fault => s

/-- Step 6 of a period (R142, R143). -/
def formBrush (u : ArmUnit) (s : State) : State :=
  s.withArm u (periodBrush (armParams s u) s.micros (fnState s (brushFn u)) (fnValue s (brushFn u)) (s.arm u))

/-- A whole arm period (R125): in JOINING it reads its inputs and keeps its timers; from OPERATING on it does all six steps.
Beside a deflect press of the same instant the order is the queue's, a DESIGN CHOICE (R130; notes/assumptions/31.md). -/
def armPeriod (u : ArmUnit) (expiry : Nat) (s : State) : State :=
  let read := readArm u expiry s
  if operating s then formBrush u (armTransition u expiry (checkAngle u (checkStep u read))) else read

/-- ARM_PERIOD_EXPIRY (R125). -/
def execArmPeriodExpiry (unit : ArmUnit) (s : State) : Outcome State Fault Refusal :=
  .next (match (s.arm unit).due with
    | some t => if dutiesRun s && armPresent s unit && decide (t ≤ ms s) then armPeriod unit t s else s
    | none => s)

/-! ## Between periods (R136, R138, R144) -/

/-- Whether the WAIT_TIME step in progress has run its units of 50 ms (R136). -/
def waitTimeOver (s : State) (u : ArmUnit) : Bool :=
  match stepInProgress s u, (s.arm u).record with
  | some (.waitTime units), .time start => start + units * 50 ≤ ms s
  | _, _ => false

/-- WAIT_TIME_COMPLETE (R136). -/
def execWaitTimeComplete (unit : ArmUnit) (s : State) : Outcome State Fault Refusal :=
  .next (if armPresent s unit && waitTimeOver s unit then completeStep unit s else s)

/-- STEP_DEADLINE (R138): the step incomplete at its deadline puts the arm in FAULT with STEP_TIMEOUT. -/
def execStepDeadline (unit : ArmUnit) (s : State) : Outcome State Fault Refusal :=
  .next (if due (ms s) (s.arm unit).deadline then faultEvent unit .stepTimeout s else s)

/-- The load factor after a window (R144). -/
def nextLoad (measured target load : Nat) : Nat :=
  if measured * 100 < target * 85 then max 40 (load - 10)
  else if target * 95 ≤ measured * 100 then min 100 (load + 5)
  else load

/-- Whether a brush channel is assigned and not LOST (R143, R144). -/
def brushMeasured (s : State) (u : ArmUnit) : Bool :=
  (fnState s (brushFn u)).isSome && fnState s (brushFn u) != some .lost

/-- A load window's expiry: L adjusted, the timer restarted, the claim re-formed when L changed (R144, R145). -/
def loadWindow (u : ArmUnit) (expiry : Nat) (s : State) : State :=
  let a := s.arm u
  let load := if brushMeasured s u then nextLoad (fnValue s (brushFn u)) a.target a.load else a.load
  let s1 := s.withArm u { a with load := load, loadDue := some (expiry + 500) }
  if load = a.load then s1 else reformArmClaim u s1

/-- LOAD_WINDOW_EXPIRY (R144). -/
def execLoadWindowExpiry (unit : ArmUnit) (s : State) : Outcome State Fault Refusal :=
  .next (match (s.arm unit).loadDue with
    | some t =>
      if armPresent s unit && (s.arm unit).state == .sweeping && decide (t ≤ ms s) then loadWindow unit t s else s
    | none => s)

end Sys2Proof.Machine
end

