-- ==== Sys2Proof/Machine/DriveDuty.lean ====
section
/-! DEFINITION. The pace engine (spec/04, 4.3) and the drive duty's control period (spec/05). -/

namespace Sys2Proof.Machine

open Host (Outcome)

/-! ## The pace engine (R71–R78) -/

/-- The pace engine's entries and result share one shape. -/
abbrev PaceEntry := PaceResult

/-- The maximum of a mode in FORWARD, as the mode entry takes it (R72). -/
def modeCeiling (p : DriveParams) : Mode → Nat
  | .park => 0
  | .transport => p.transportMax
  | .sweep => p.sweepMax

/-- The mode a payload of OPERATOR asks for (R72, R82). -/
def operatorMode (r : SlotRecord) : Mode := modeOfCode (byteAt r.payload 0)

/-- The mode entry, when OPERATOR_IN is heard (R72). -/
def modeEntry (s : State) : List PaceEntry :=
  match operatorRecord s with
  | some r => [⟨modeCeiling s.params.drive (operatorMode r), .normal, s.loader.address, .mode⟩]
  | none => []

/-- The OPERATOR_LOST entry that stands in its place (R72). -/
def operatorLostEntry (s : State) : List PaceEntry :=
  match operatorRecord s with
  | some _ => []
  | none => [⟨0, .stop, s.loader.address, .operatorLost⟩]

/-- The drive's own entry (R73). -/
def ownEntry (s : State) : PaceEntry :=
  let c := s.drive.claim.getD (formClaim s (driveOwnClaim s))
  ⟨c.ceiling, c.urgency, s.loader.address, c.reason⟩

/-- What a heard PACE_IN record says, as R74 reads it. -/
def readPace (r : SlotRecord) : PaceEntry :=
  if headerTopic r.header = topicNumber .pace then
    ⟨min 6000 (wordAt r.payload 1), urgencyOfCode (byteAt r.payload 3), headerSource r.header,
      reasonOfCode (byteAt r.payload 4)⟩
  else ⟨0, .stop, headerSource r.header, .peerLost⟩

/-- The higher of two urgencies. -/
def maxUrgency (a b : Urgency) : Urgency := if higherUrgency b a then b else a

/-- An AGED record's entry: cut to the aged creep when that is strictly smaller (R76). -/
def agedPace (creep : Nat) (e : PaceEntry) : PaceEntry :=
  if creep < e.ceiling then ⟨creep, maxUrgency e.urgency .prompt, e.source, .agedCreep⟩ else e

/-- The source a required EMPTY slot's entry gives: the source bits of its naming rule's match value (R77). -/
def emptySource (p : Picture) (slot : Fin 32) : BitVec 4 :=
  match governingRule p slot with
  | some i => (p.table[i].matchValue).extractLsb' 0 4
  | none => 0

/-- The entry of one PACE_IN slot, if it gives one (R75–R77). -/
def slotEntry (s : State) (slot : Fin 32) : List PaceEntry :=
  let lost (source : BitVec 4) : List PaceEntry :=
    if slotRequired s.picture slot then [⟨0, .stop, source, .peerLost⟩] else []
  match s.picture.slots[slot].record with
  | none => lost (emptySource s.picture slot)
  | some r =>
    match r.age with
    | .fresh => [readPace r]
    | .aged => [agedPace s.params.drive.agedCreep (readPace r)]
    | .lost => lost (headerSource r.header)

/-- Every entry of a run, in the order of R78. -/
def paceEntries (s : State) : List PaceEntry :=
  modeEntry s ++ ownEntry s :: operatorLostEntry s ++ (slotsOf s.picture .paceIn).flatMap (slotEntry s)

/-- Whether an entry is chosen over an earlier one: a smaller ceiling, then a higher urgency, then a lower source (R78). -/
def beats (a b : PaceEntry) : Bool :=
  a.ceiling < b.ceiling
    || (a.ceiling == b.ceiling
      && (higherUrgency a.urgency b.urgency || (a.urgency == b.urgency && a.source.toNat < b.source.toNat)))

/-- The chosen entry: the first that no other beats (R78). -/
def chooseEntry : PaceEntry → List PaceEntry → PaceEntry
  | best, [] => best
  | best, x :: rest => chooseEntry (if beats x best then x else best) rest

/-- One run of the pace engine (R71, R78). -/
def paceRun (s : State) : PaceResult :=
  match paceEntries s with
  | [] => ownEntry s
  | x :: rest => chooseEntry x rest

/-! ## Inputs (R82) -/

/-- What the drive takes at step 3. -/
structure DriveInputs where
  mode : Mode
  request : Direction
  pedal : Nat
  vm : Nat
  n : Nat
  wheelLost : Bool
  engineStopped : Bool
  safe : Bool
  operating : Bool
  peersHeard : Bool
deriving DecidableEq, Repr

/-- Whether every required PACE_IN slot is FRESH or AGED (R86). -/
def peersHeard (p : Picture) : Bool :=
  (slotsOf p .paceIn).all fun n =>
    !slotRequired p n ||
      match p.slots[n].record with
      | some r => recordHeard r
      | none => false

/-- The drive's inputs of a period (R82). -/
def driveInputs (s : State) : DriveInputs where
  mode := match operatorRecord s with
    | some r => operatorMode r
    | none => .park
  request := match operatorRecord s with
    | some r => (directionOfCode (byteAt r.payload 1)).getD s.drive.direction
    | none => s.drive.direction
  pedal := match operatorRecord s with
    | some r => min 1000 (wordAt r.payload 2)
    | none => 0
  vm := min 6000 (fnValue s .wheel)
  n := fnValue s .engine
  wheelLost := fnState s .wheel == some .lost
  engineStopped := fnState s .engine == some .stopped || fnState s .engine == none
  safe := isSafe s
  operating := operating s
  peersHeard := peersHeard s.picture

/-! ## Mode and requested speed (R84, R85) -/

/-- The mode maximum of a mode for a direction (R84). -/
def modeMax (p : DriveParams) (m : Mode) (d : Direction) : Nat :=
  match m, d with
  | .park, _ => 0
  | .transport, .forward => p.transportMax
  | .sweep, .forward => p.sweepMax
  | .transport, .reverse => p.reverseMax
  | .sweep, .reverse => p.reverseMax

/-- Step 4: the mode in use follows the request once V is within its maximum (R84). -/
def nextMode (p : DriveParams) (d : Drive) (i : DriveInputs) : Mode :=
  if d.v ≤ modeMax p i.mode d.direction then i.mode else d.mode

/-- The requested speed Vr (R85). -/
def requestedSpeed (p : DriveParams) (m : Mode) (d : Direction) (pedal : Nat) : Nat := pedal * modeMax p m d / 1000

/-! ## State transitions (R86–R89) -/

/-- The standstill timer has run 1000 ms at a period's expiry (R88). -/
def stoodStill (d : Drive) (expiry : Nat) : Bool :=
  match d.standstill with
  | some start => start + 1000 ≤ expiry
  | none => false

/-- Step 5: at most one transition (R86–R89). -/
def nextDriveState (p : DriveParams) (d : Drive) (i : DriveInputs) (vr ceiling expiry : Nat) : DriveState :=
  match d.state with
  | .parked =>
    if i.operating && !i.safe && i.mode != .park && !i.engineStopped && p.engineMin ≤ i.n && vr == 0 && i.peersHeard
    then .standing else .parked
  | .standing =>
    if i.mode == .park then .parked
    else if i.request == d.direction && p.engineMin ≤ i.n && 0 < min vr ceiling then .running
    else .standing
  | .running =>
    if i.n < p.engineMin then .halting
    else if stoodStill d expiry then .standing
    else .running
  | .halting => if d.v == 0 && i.vm < 50 then .held else .halting
  | .held =>
    if !i.safe && i.mode == .park then .parked
    else if !i.safe && i.mode != .park && p.engineMin + 100 ≤ i.n && vr == 0 then .standing
    else .held

/-- Step 6: in STANDING the direction becomes the requested one (R91). -/
def nextDirection (d : Drive) (i : DriveInputs) (st : DriveState) : Direction :=
  if st = .standing then i.request else d.direction

/-! ## The arithmetic (R92–R100) -/

/-- Stage 1: the target (R92). -/
def driveTarget (st : DriveState) (pending : Bool) (vr ceiling : Nat) : Nat :=
  if st = .running ∧ pending = false then min vr ceiling else 0

/-- The step of an acceleration over one period (R93). -/
def rampStep (a : Nat) : Nat := max 1 (a / 100)

/-- Stage 2: the deceleration (R93). -/
def deceleration (p : DriveParams) (st : DriveState) (urgency : Urgency) (ceiling v : Nat) : Nat :=
  if st = .halting then p.aEmergency
  else if urgency = .stop ∧ ceiling < v then p.aEmergency
  else if urgency = .prompt ∧ ceiling < v then p.aPrompt
  else p.aDown

/-- Stage 3: the ramp (R94). -/
def ramp (v target up down : Nat) : Nat :=
  if v < target then v + min up (target - v)
  else if target < v then v - min down (v - target)
  else v

/-- Stage 4: the feedforward (R95). -/
def feedforward (p : DriveParams) (v n : Nat) : Nat := v * p.kff / max n p.engineMin

/-- Stages 5 to 7: D and the A1 that carries on, from V', Vm, N and the old A1 (R96–R98). -/
def displacement (p : DriveParams) (v vm n : Nat) (a1 : Int) (wheelLost : Bool) : Nat × Int :=
  let dff : Int := feedforward p v n
  if wheelLost then (clampNat 1000 dff, 0)
  else
    let e : Int := (v : Int) - vm
    let limit : Int := p.iLimit * 1024
    let proportional := Int.tdiv (e * p.kp) 64
    let next := clampInt (-limit) limit (a1 + e * p.ki)
    let sum := dff + proportional + Int.tdiv next 1024
    let undone := (1000 < sum ∧ 0 < e) ∨ (sum < 0 ∧ e < 0)
    (clampNat 1000 sum, if undone then a1 else next)

/-- Stage 8: the duty of the direction coil (R99). -/
def coilDuty (p : DriveParams) (d : Nat) : Nat := p.iMin + d * (p.iMax - p.iMin) / 1000

/-- Whether a drive state moves: RUNNING and HALTING compute, the others rest (R100). -/
def driveMoves (st : DriveState) : Bool := st == .running || st == .halting

/-- Step 7 (R92–R100): the drive with its new V, A1, D and coil duties, for its state, direction and mode of this period. -/
def driveArithmetic (p : DriveParams) (i : DriveInputs) (pace : PaceResult) (vr : Nat) (d : Drive) : Drive :=
  if driveMoves d.state then
    let target := driveTarget d.state (i.request != d.direction) vr pace.ceiling
    let down := rampStep (deceleration p d.state pace.urgency pace.ceiling d.v)
    let v := ramp d.v target (rampStep p.aUp) down
    let r := displacement p v i.vm i.n d.a1 i.wheelLost
    let duty := coilDuty p r.1
    { d with
      v := v
      a1 := r.2
      d := r.1
      fwdDuty := if d.direction = .forward then duty else 0
      revDuty := if d.direction = .reverse then duty else 0 }
  else { d with v := 0, a1 := 0, d := 0, fwdDuty := 0, revDuty := 0 }

/-! ## The period (R81) -/

/-- Step 8: the brake, the standstill timer and the expect-motion input (R83, R88, R103); `oldV` is V before this period. -/
def finishDrive (now expiry oldV : Nat) (d : Drive) : Drive :=
  { d with
    brakeOn := driveMoves d.state
    standstill :=
      if d.state = .running ∧ d.v = 0 ∧ d.vm < 50 then some (d.standstill.getD expiry) else none
    expectSince := noteExpect now (300 ≤ oldV) (300 ≤ d.v) d.expectSince }

/-- Steps 3 to 8 of a period, the pace engine having run (R81–R103). -/
def driveWork (p : DriveParams) (i : DriveInputs) (pace : PaceResult) (now expiry : Nat) (d : Drive) : Drive :=
  let mode := nextMode p d i
  let vr := requestedSpeed p mode d.direction i.pedal
  let st := nextDriveState p d i vr pace.ceiling expiry
  let moved := { d with
    mode := mode
    state := st
    direction := nextDirection d i st
    vm := i.vm
    n := i.n
    pace := pace }
  finishDrive now expiry d.v (driveArithmetic p i pace vr moved)

/-- A whole drive period (R81): the claim, the pace engine, then the drive's work; the timer restarts from this expiry. -/
def drivePeriod (expiry : Nat) (s : State) : State :=
  let claimed := reformDriveClaim s
  let worked := driveWork claimed.params.drive (driveInputs claimed) (paceRun claimed) claimed.micros expiry claimed.drive
  claimed.withDrive { worked with due := some (expiry + 10) }

/-- DRIVE_PERIOD_EXPIRY (R81). -/
def execDrivePeriodExpiry (s : State) : Outcome State Fault Refusal :=
  .next (match s.drive.due with
    | some t => if dutiesRun s && s.duties.drive && decide (t ≤ ms s) then drivePeriod t s else s
    | none => s)

end Sys2Proof.Machine
end

