-- ==== Sys2Proof/Machine/Image.lean ====
section
/-! DEFINITION. The configuration image: where its fields sit (R209), and the CRC and field checks (R197–R199). -/

namespace Sys2Proof.Machine

/-- The image as the loader's own store holds it (R196). -/
abbrev Image := Vector Byte 1024

/-! ## Fields -/

/-- The byte at a place. -/
def imgByte (m : Image) (n : Nat) : Nat := byteAt m.toList n

/-- A field of two bytes, high byte first (R205). -/
def imgWord (m : Image) (n : Nat) : Nat := imgByte m n * 256 + imgByte m (n + 1)

/-- A field of four bytes, high byte first (R205). -/
def imgLong (m : Image) (n : Nat) : Nat := imgWord m n * 65536 + imgWord m (n + 2)

/-- Nibble `i` of a run of nibbles from byte `n`, the first in the high nibble (R209). -/
def imgNibble (m : Image) (n i : Nat) : Nat :=
  if i % 2 = 0 then imgByte m (n + i / 2) / 16 else imgByte m (n + i / 2) % 16

/-- A valve line code: 0–15 (R205); any other value names no line. -/
def valveLineOf (code : Nat) : Option (Fin 16) := if h : code < 16 then some ⟨code, h⟩ else none

/-- A PWM line code: 0–7 (R205); any other value names no line. -/
def pwmLineOf (code : Nat) : Option (Fin 8) := if h : code < 8 then some ⟨code, h⟩ else none

/-- A line code that a field allowing none may hold: a line or 0xFF (R205). -/
def lineOrNone (bound code : Nat) : Bool := code < bound || code == 0xFF

/-- The pulse function of a code; a code outside the list fails IO_ASSIGNMENT (R205, R207). -/
def pulseFnOf : Nat → Option PulseFn
  | 0 => some .unused
  | 1 => some .wheel
  | 2 => some .engine
  | 3 => some .brushA
  | 4 => some .brushB
  | 5 => some .flow
  | _ => none

/-- The analog function of a code; a code outside the list fails IO_ASSIGNMENT (R205, R207). -/
def analogFnOf : Nat → Option AnalogFn
  | 0 => some .unused
  | 1 => some .pedal
  | 2 => some .rateKnob
  | 3 => some .angleA
  | 4 => some .angleB
  | 5 => some .tank
  | _ => none

/-- A position code (R207). -/
def positionOf : Nat → Position
  | 0 => .left
  | 1 => .right
  | 2 => .main
  | _ => .aux

/-- The switch function of a nibble; every code is listed (R207). -/
def switchFnOf : Nat → SwitchFn
  | 0 => .unused
  | 1 => .deflectA
  | 2 => .deflectB
  | 3 => .mode1
  | 4 => .mode2
  | 5 => .dir
  | 6 => .haltButton
  | 7 => .resetButton
  | n => if n < 12 then .deploy (positionOf (n - 8)) else .retract (positionOf (n - 12))

/-- The bit rate of a code (R209). -/
def bitRateOf : Nat → Option BitRate
  | 1 => some .k125
  | 2 => some .k250
  | 3 => some .k500
  | _ => none

/-- The duty set of byte 1 (R207). -/
def imgDuties (m : Image) : DutySet :=
  let b := imgByte m 1
  ⟨b.testBit 0, b.testBit 1, b.testBit 2, b.testBit 3, b.testBit 4⟩

/-- The 7 bytes of a pulse channel's constants (R209). -/
def imgConst (m : Image) (n : Nat) : PulseConst := ⟨imgWord m n, imgByte m (n + 2), imgLong m (n + 3)⟩

/-- Rule entry `i`, 8 bytes at 4 + 8i (R209). -/
def imgRule (m : Image) (i : Nat) : Rule :=
  let n := 4 + 8 * i
  let head := imgByte m n
  let value := imgWord m (n + 1)
  let mask := imgWord m (n + 3)
  { inUse := head.testBit 7
    origin := if head.testBit 6 then .self else .others
    required := head.testBit 5
    matchValue := BitVec.ofNat 12 (value / 16)
    mask := BitVec.ofNat 12 (mask / 16)
    minLength := BitVec.ofNat 4 value
    labelCode := BitVec.ofNat 4 mask
    destCode := BitVec.ofNat 8 (imgByte m (n + 5))
    ageSteps := BitVec.ofNat 8 (imgByte m (n + 6))
    slotNumber := BitVec.ofNat 8 (imgByte m (n + 7)) }

/-- The subscription table, entry i into rule i (R1). -/
def imgTable (m : Image) : Vector Rule 24 := Vector.ofFn fun i => imgRule m i.val

/-- The hold set: valve levels at 736–737, PWM duties at 738–753 (R180, R209). -/
def imgHold (m : Image) : HoldSet where
  valves := BitVec.ofNat 16 (imgWord m 736)
  pwm := Vector.ofFn fun i => imgWord m (738 + 2 * i.val)

/-- The drive block (R209). -/
def imgDrive (m : Image) : DriveParams where
  transportMax := imgWord m 224
  sweepMax := imgWord m 226
  reverseMax := imgWord m 228
  creep := imgWord m 230
  agedCreep := imgWord m 232
  engineMin := imgWord m 234
  aUp := imgWord m 236
  aDown := imgWord m 238
  aPrompt := imgWord m 240
  aEmergency := imgWord m 242
  kff := imgWord m 244
  kp := imgByte m 246
  ki := imgByte m 247
  iLimit := imgWord m 248
  iMin := imgWord m 250
  iMax := imgWord m 252
  fwdLine := pwmLineOf (imgByte m 254)
  revLine := pwmLineOf (imgByte m 255)
  brakeLine := valveLineOf (imgByte m 256)
  wheelConst := imgConst m 257
  engineConst := imgConst m 264

/-- The unit of a nibble (R209). -/
def unitOf (n : Nat) : ArmUnit := if n = 0 then .a else .b

/-- Spray valve entry `i`: a valve line and a tie (R209). -/
def imgSpray (m : Image) (i : Nat) : SprayValve where
  line := valveLineOf (imgByte m (336 + 2 * i))
  tie :=
    if imgByte m (337 + 2 * i) / 16 = 15 then .always
    else .arm (BitVec.ofNat 4 (imgByte m (337 + 2 * i) / 16)) (unitOf (imgByte m (337 + 2 * i) % 16))

/-- The water block (R209). -/
def imgWater (m : Image) : WaterParams where
  rateMax := imgWord m 320
  qMax := imgWord m 322
  sprayMin := imgWord m 324
  primeTime := imgByte m 326
  kq := imgByte m 327
  kw := imgWord m 328
  lowMark := imgWord m 330
  emptyMark := imgWord m 332
  dryForbidden := imgByte m 334 == 1
  pumpLine := pwmLineOf (imgByte m 335)
  sprays := Vector.ofFn fun i => imgSpray m i.val
  flowConst := imgConst m 344

/-- The console block (R209). -/
def imgConsole (m : Image) : ConsoleParams where
  deadband := imgWord m 384
  rateMax := imgWord m 386
  haltNormallyClosed := imgByte m 388 == 1
  lampLine := valveLineOf (imgByte m 389)

/-- A step of two bytes: kind in bits 15–13, argument in bits 12–0 (R209). A kind code of 7 fails STEP_LIST. -/
def stepOf (w : Nat) : Option Step :=
  let arg := w % 8192
  match w / 8192 with
  | 0 => some (.valve (Fin.ofNat 4 (arg % 4)) (arg.testBit 2))
  | 1 => some (.brush (arg.testBit 0))
  | 2 => some (.waitAngle (arg.testBit 12) (arg % 2048))
  | 3 => some (.waitTime arg)
  | 4 => some (.waitDist arg)
  | 5 => some .waitWater
  | 6 => some .waitBrush
  | _ => none

/-- The first `len` steps of the list at byte `n`; `len` is at most 16 in an image that passes STEP_LIST. -/
def imgSteps (m : Image) (n len : Nat) : List (Option Step) :=
  (List.range (min 16 len)).map fun i => stepOf (imgWord m (n + 2 * i))

/-- An arm block at byte `n`, its lists at byte `l` and its brush constants at byte `c` (R209). -/
def imgArm (m : Image) (n l c : Nat) : ArmParams where
  position := positionOf (imgByte m n)
  brushLine := pwmLineOf (imgByte m (n + 1))
  sweepWidth := imgWord m (n + 2)
  yieldWidth := imgWord m (n + 4)
  baseRpm := imgWord m (n + 6)
  maxRpm := imgWord m (n + 8)
  slope := imgWord m (n + 10)
  kb := imgWord m (n + 12)
  kt := imgByte m (n + 14)
  stepTimeout := imgByte m (n + 15)
  stowLow := imgWord m (n + 16)
  stowHigh := imgWord m (n + 18)
  moveCeiling := imgWord m (n + 20)
  yieldCeiling := imgWord m (n + 22)
  lines := Vector.ofFn fun i => valveLineOf (imgByte m (n + 24 + i.val))
  deploy := (imgSteps m l (imgByte m (n + 28))).filterMap id
  retract := (imgSteps m (l + 32) (imgByte m (n + 29))).filterMap id
  yield := (imgSteps m (l + 64) (imgByte m (n + 30))).filterMap id
  resume := (imgSteps m (l + 96) (imgByte m (n + 31))).filterMap id
  brushConst := imgConst m c

/-- What the duties and the scheduler read (R201, R209). -/
def imgParams (m : Image) : Params where
  periods := Vector.ofFn fun i => imgByte m (196 + i.val)
  drive := imgDrive m
  water := imgWater m
  console := imgConsole m
  armA := imgArm m 416 480 754
  armB := imgArm m 448 608 761

/-- The pulse functions, an unlisted code read as unused (R209). -/
def imgPulseFn (m : Image) (i : Fin 6) : PulseFn := (pulseFnOf (imgNibble m 212 i.val)).getD .unused

/-- The analog functions, an unlisted code read as unused (R209). -/
def imgAnalogFn (m : Image) (i : Fin 4) : AnalogFn := (analogFnOf (imgNibble m 215 i.val)).getD .unused

/-- The switch functions (R209). -/
def imgSwitchFn (m : Image) (i : Fin 8) : SwitchFn := switchFnOf (imgNibble m 217 i.val)

/-! ## The CRC (R197) -/

/-- The CRC number of bytes 1022 and 1023. -/
def imgCrc (m : Image) : Word16 := BitVec.ofNat 16 (imgWord m 1022)

/-- The CRC over bytes 0 to 1021 agrees (R197). -/
def crcAgrees (m : Image) : Bool := crc16 (m.toList.take 1022) == imgCrc m

/-! ## The field checks (R198, R199): each says that the image passes -/

/-- A constant's ranges (R209): spacing and K not 0, window 2–200 steps. -/
def constOk (c : PulseConst) : Bool := 1 ≤ c.minSpacing && 2 ≤ c.windowSteps && c.windowSteps ≤ 200 && 1 ≤ c.k

/-- RULE (R198): only a rule in use is checked (R199); origin and minimum length always lie in their lists. -/
def ruleOk (r : Rule) : Bool :=
  !r.inUse ||
    ((labelOfCode r.labelCode.toNat).isSome && (destinationOfCode r.destCode.toNat).isSome
      && r.slotNumber.toNat ≤ 31 && 1 ≤ r.ageSteps.toNat)

/-- PERIOD (R198): the period of each topic the station publishes is 1–100 steps. -/
def periodsOk (m : Image) : Bool :=
  cyclicTopics.all fun t =>
    !publishes (imgDuties m) t ||
      (1 ≤ imgByte m (196 + (cyclicIndex t).val) && imgByte m (196 + (cyclicIndex t).val) ≤ 100)

/-- The duty that reads a pulse function is present (R107). -/
def pulseReader (d : DutySet) : PulseFn → Bool
  | .unused => true
  | .wheel => d.drive
  | .engine => d.drive
  | .brushA => d.armA
  | .brushB => d.armB
  | .flow => d.water

/-- The duty that reads an analog function is present (R117). -/
def analogReader (d : DutySet) : AnalogFn → Bool
  | .unused => true
  | .pedal => d.console
  | .rateKnob => d.console
  | .angleA => d.armA
  | .angleB => d.armB
  | .tank => d.water

/-- The duty that reads a switch function is present (R120). -/
def switchReader (d : DutySet) : SwitchFn → Bool
  | .unused => true
  | .deflectA => d.armA
  | .deflectB => d.armB
  | .mode1 | .mode2 | .dir | .haltButton | .resetButton | .deploy _ | .retract _ => d.console

/-- Whether no value of a list stands in it twice. -/
def noRepeat {α : Type} [DecidableEq α] : List α → Bool
  | [] => true
  | x :: rest => !rest.contains x && noRepeat rest

/-- The pulse functions assigned, in input order. -/
def pulseFns (m : Image) : List PulseFn := (List.finRange 6).map (imgPulseFn m)

/-- The analog functions assigned, in input order. -/
def analogFns (m : Image) : List AnalogFn := (List.finRange 4).map (imgAnalogFn m)

/-- The switch functions assigned, in input order. -/
def switchFns (m : Image) : List SwitchFn := (List.finRange 8).map (imgSwitchFn m)

/-- Every input code is listed, read on this station, and given once (R107, R117, R120). -/
def functionsOk (m : Image) : Bool :=
  let d := imgDuties m
  ((List.finRange 6).all fun i => (pulseFnOf (imgNibble m 212 i.val)).isSome)
    && ((List.finRange 4).all fun i => (analogFnOf (imgNibble m 215 i.val)).isSome)
    && (pulseFns m).all (pulseReader d) && (analogFns m).all (analogReader d) && (switchFns m).all (switchReader d)
    && noRepeat ((pulseFns m).filter (· != .unused)) && noRepeat ((analogFns m).filter (· != .unused))
    && noRepeat ((switchFns m).filter (· != .unused))

/-- The lines of a list that are named. -/
def namedLines {n : Nat} (present : Bool) (l : List (Option (Fin n))) : List (Fin n) := if present then l.filterMap id else []

/-- Every valve line given a role (R198). -/
def valveRoles (d : DutySet) (p : Params) : List (Fin 16) :=
  namedLines d.drive [p.drive.brakeLine] ++ namedLines d.water (p.water.sprays.toList.map SprayValve.line)
    ++ namedLines d.armA p.armA.lines.toList ++ namedLines d.armB p.armB.lines.toList
    ++ namedLines d.console [p.console.lampLine]

/-- Every PWM line given a role (R198). -/
def pwmRoles (d : DutySet) (p : Params) : List (Fin 8) :=
  namedLines d.drive [p.drive.fwdLine, p.drive.revLine] ++ namedLines d.armA [p.armA.brushLine]
    ++ namedLines d.armB [p.armB.brushLine] ++ namedLines d.water [p.water.pumpLine]

/-- The lines each present duty needs (R198). -/
def needsMet (m : Image) (p : Params) : Bool :=
  let d := imgDuties m
  (!d.drive ||
      ((pulseFns m).contains .wheel && (pulseFns m).contains .engine && p.drive.fwdLine.isSome && p.drive.revLine.isSome
        && p.drive.brakeLine.isSome))
    && (!d.armA || ((analogFns m).contains .angleA && p.armA.brushLine.isSome))
    && (!d.armB || ((analogFns m).contains .angleB && p.armB.brushLine.isSome))
    && (!d.water || ((analogFns m).contains .tank && p.water.pumpLine.isSome))

/-- IO_ASSIGNMENT (R198). -/
def ioOk (m : Image) : Bool :=
  let p := imgParams m
  functionsOk m && noRepeat (valveRoles (imgDuties m) p) && noRepeat (pwmRoles (imgDuties m) p) && needsMet m p

/-- DRIVE (R105, R198). -/
def driveOk (p : DriveParams) : Bool :=
  p.transportMax ≤ 6000 && p.sweepMax ≤ 6000 && p.reverseMax ≤ 6000 && p.creep ≤ 6000 && p.agedCreep ≤ 6000
    && 100 ≤ p.engineMin && p.engineMin ≤ 3000
    && [p.aUp, p.aDown, p.aPrompt, p.aEmergency].all (fun a => 100 ≤ a && a ≤ 5000)
    && p.iLimit ≤ 500 && p.iMin ≤ p.iMax && p.iMax ≤ 1000 && constOk p.wheelConst && constOk p.engineConst

/-- A spray valve entry (R149, R209): a line or none, and with a line a tie to ALWAYS or a station 0–14 with unit A or B. -/
def sprayOk (m : Image) (i : Nat) : Bool :=
  lineOrNone 16 (imgByte m (336 + 2 * i))
    && (16 ≤ imgByte m (336 + 2 * i) || imgByte m (337 + 2 * i) / 16 == 15 || imgByte m (337 + 2 * i) % 16 ≤ 1)

/-- WATER (R149, R198). -/
def waterOk (m : Image) (p : WaterParams) : Bool :=
  p.rateMax ≤ 400 && 1 ≤ p.qMax && p.qMax ≤ 2000 && p.sprayMin ≤ 6000 && p.kw ≤ 10000 && p.lowMark ≤ 1000
    && p.emptyMark ≤ p.lowMark && imgByte m 334 ≤ 1 && (List.range 4).all (sprayOk m)
    && (!(pulseFns m).contains .flow || constOk p.flowConst)

/-- CONSOLE (R198). -/
def consoleOk (m : Image) (p : ConsoleParams) : Bool :=
  p.deadband ≤ 500 && p.rateMax ≤ 400 && imgByte m 388 ≤ 1 && lineOrNone 16 (imgByte m 389)

/-- One arm block at byte `n` (R122, R198). -/
def armBlockOk (m : Image) (n : Nat) (fn : PulseFn) (p : ArmParams) : Bool :=
  imgByte m n ≤ 3 && p.sweepWidth ≤ 3000 && p.yieldWidth ≤ 3000 && p.baseRpm ≤ p.maxRpm && p.maxRpm ≤ 3000
    && p.slope ≤ 1000 && p.kb ≤ 10000 && 1 ≤ p.stepTimeout && p.stowLow ≤ p.stowHigh && p.stowHigh ≤ 1000
    && p.moveCeiling ≤ 6000 && p.yieldCeiling ≤ 6000 && p.lines[0].isSome
    && (List.range 4).all (fun i => lineOrNone 16 (imgByte m (n + 24 + i)))
    && (!(pulseFns m).contains fn || constOk p.brushConst)

/-- ARM (R198): each block present, and two positions that differ. -/
def armOk (m : Image) (p : Params) : Bool :=
  let d := imgDuties m
  (!d.armA || armBlockOk m 416 .brushA p.armA) && (!d.armB || armBlockOk m 448 .brushB p.armB)
    && !(d.armA && d.armB && p.armA.position == p.armB.position)

/-- One step of a list (R198): its kind listed, a VALVE line assigned, an angle threshold at most 1000. -/
def stepOk (p : ArmParams) : Option Step → Bool
  | none => false
  | some (.valve line _) => p.lines[line].isSome
  | some (.waitAngle _ threshold) => threshold ≤ 1000
  | some (.brush _) | some (.waitTime _) | some (.waitDist _) | some .waitWater | some .waitBrush => true

/-- One list at byte `n` with its length (R198). -/
def listOk (m : Image) (p : ArmParams) (n len : Nat) : Bool := len ≤ 16 && (imgSteps m n len).all (stepOk p)

/-- The four lists of an arm block at byte `n` (R198). -/
def listsOk (m : Image) (p : ArmParams) (n l : Nat) : Bool :=
  listOk m p l (imgByte m (n + 28)) && listOk m p (l + 32) (imgByte m (n + 29)) && listOk m p (l + 64) (imgByte m (n + 30))
    && listOk m p (l + 96) (imgByte m (n + 31))

/-- STEP_LIST (R198). -/
def stepListsOk (m : Image) (p : Params) : Bool :=
  (!(imgDuties m).armA || listsOk m p.armA 416 480) && (!(imgDuties m).armB || listsOk m p.armB 448 608)

/-- HOLD_SET (R198). -/
def holdOk (h : HoldSet) : Bool := h.pwm.toList.all fun d => d ≤ 1000

/-- The field checks in the order of R198, each with its code. -/
def fieldChecks (m : Image) : List (CheckCode × Bool) :=
  let d := imgDuties m
  let p := imgParams m
  [ (.version, imgByte m 0 == 1),
    (.bitRate, (bitRateOf (imgByte m 2)).isSome),
    (.dutySet, imgByte m 1 < 32),
    (.rule, (imgTable m).toList.all ruleOk),
    (.period, periodsOk m),
    (.ioAssignment, ioOk m),
    (.drive, !d.drive || driveOk p.drive),
    (.water, !d.water || waterOk m p.water),
    (.console, !d.console || consoleOk m p.console),
    (.arm, armOk m p),
    (.stepList, stepListsOk m p),
    (.holdSet, holdOk (imgHold m)) ]

/-- The code of the first check that fails, none when the image is valid (R197, R198). -/
def failedCheckOf (m : Image) : Option CheckCode :=
  if crcAgrees m then ((fieldChecks m).find? fun c => !c.2).map Prod.fst else some .imageCrc

end Sys2Proof.Machine
end

