-- ==== Sys2Proof/Machine/LinkController.lean ====
section
/-! DEFINITION. The Link Controller's commands (spec/02): the receiver, the contest for the medium, aborts, success and MUTE. -/

namespace Sys2Proof.Machine

open Host (Outcome)

/-- Whether the receiver samples the bus: whenever the station is out of CONFIGURING (spec/02, 2.3). -/
def sampling (s : State) : Bool := s.loader.station != .configuring

/-- A frame or echo copy at the holding queue (R33, R34): it joins the tail, or at a full queue is dropped with the
holding-overrun flag latched. -/
def holdFrame (f : HeldFrame) (l : Link) : Link :=
  if l.holding.length < 4 then { l with holding := l.holding ++ [f] } else { l with overrunFlag := true }

/-- A state with its Link Controller changed. -/
def onLink (f : Link → Link) (s : State) : State := s.withLink (f s.link)

/-! ## Receiving (R29–R32, R35) -/

/-- Idle seen (R29, R32, R35): short frame if one was being collected; the receiver WAITING; a link in HUNT goes ON. -/
def seeIdle (l : Link) : Link :=
  { l with
    shortFlag := l.shortFlag || l.receiver == .inFrame
    receiver := .waiting
    state := if l.state = .hunt then .on else l.state }

/-- IDLE_SEEN: eleven recessive bits put the receiver back to WAITING in every state, whatever the transmitter does (R29). -/
def execIdleSeen (s : State) : Outcome State Fault Refusal := .next (if sampling s then onLink seeIdle s else s)

/-- The station's own frame is on the wire: what disturbs it is the transmitter's to meet (R37, R39, R40). -/
def sendsFrame (l : Link) : Bool := l.transmitter == .contend || l.transmitter == .send

/-- A framing error (R31). -/
def frameError (l : Link) : Link := { l with framingFlag := true, receiver := .hunt }

/-- FRAMING_ERROR. A station that is sending a frame meets it as a transmit fault (R37, R39). -/
def execFramingError (s : State) : Outcome State Fault Refusal :=
  .next (if s.link.receiver == .inFrame && !sendsFrame s.link then onLink frameError s else s)

/-- A received frame completes (R30): good, it is delivered with origin OTHERS; not good, the CRC flag is latched. Either way
the receiver goes to HUNT. -/
def receiveFrame (f : CollectedFrame) (l : Link) : Link :=
  let h := { l with receiver := .hunt }
  if frameGood f then holdFrame ⟨.others, f.header, f.seq, f.payload⟩ h else { h with crcFlag := true }

/-- RECEIVE_FRAME_COMPLETE. A frame the station itself is sending completes as TRANSMIT_SUCCESS (R30, R40). -/
def execReceiveFrameComplete (chars : List Byte) (s : State) : Outcome State Fault Refusal :=
  .next (if s.link.receiver == .inFrame && !sendsFrame s.link && frameComplete chars
    then onLink (receiveFrame (collectFrame chars)) s else s)

/-! ## The contest (R36–R38) -/

/-- Whether the station may begin to send: link ON, receiver WAITING, list not empty (R36); and no frame is in hand already, the
transmitter being QUIET (notes/assumptions/27.md). -/
def mayContend (s : State) : Bool :=
  s.link.state == .on && s.link.receiver == .waiting && s.link.transmitter == .quiet && !s.pub.list.isEmpty

/-- At the start bit the head of the list becomes the frame in hand, the transmitter goes to CONTEND and the receiver to
IN_FRAME (R36). -/
def beginContest (s : State) : State :=
  match s.pub.list with
  | [] => s
  | e :: rest =>
    (s.withPub { s.pub with list := rest }).withLink
      { s.link with inHand := some e, transmitter := .contend, receiver := .inFrame }

/-- TRANSMIT_START (R36). -/
def execTransmitStart (s : State) : Outcome State Fault Refusal := .next (if mayContend s then beginContest s else s)

/-- FRAME_BEGINS (R29, R30): another station's start bit read in WAITING. A station that may contend takes it as its own
(R36); any other only receives. -/
def execFrameBegins (s : State) : Outcome State Fault Refusal :=
  .next (if s.link.receiver == .waiting then
    (if mayContend s then beginContest s else onLink (fun l => { l with receiver := .inFrame }) s) else s)

/-- ARBITRATION_WON (R37). -/
def execArbitrationWon (s : State) : Outcome State Fault Refusal :=
  .next (if s.link.transmitter == .contend then onLink (fun l => { l with transmitter := .send }) s else s)

/-- The frame in hand goes back to the Publication Scheduler as not sent (R38, R39, R57). -/
def returnInHand (s : State) : State :=
  match s.link.inHand with
  | some e => returnFrame e (onLink (fun l => { l with inHand := none }) s)
  | none => s

/-- ARBITRATION_LOST (R38): the transmitter QUIET, the receiver still IN_FRAME, the frame returned. -/
def execArbitrationLost (s : State) : Outcome State Fault Refusal :=
  .next (if s.link.transmitter == .contend
    then returnInHand (onLink (fun l => { l with transmitter := .quiet }) s) else s)

/-! ## Aborts and MUTE (R39, R41, R42) -/

/-- The instant (µs) at which an abort begun now ends: 12 bit times (R39). -/
def abortLimit (s : State) : Nat := s.micros + 12 * (s.link.bitRate.map bitMicros).getD 0

/-- TRANSMIT_FAULT (R37, R39): the abort begins and the station's own receiver goes to HUNT. -/
def execTransmitFault (s : State) : Outcome State Fault Refusal :=
  .next (if s.link.transmitter == .contend || s.link.transmitter == .send
    then onLink (fun l => { l with transmitter := .abort, receiver := .hunt, abortDue := some (abortLimit s) }) s else s)

/-- MUTE entry (R41): the link MUTE, its timer started, the MUTE-entered flag latched, LINK_MUTE reported. -/
def enterMute (s : State) : State :=
  reportCause .linkMute
    (onLink (fun l => { l with state := .mute, muteDue := some (ms s + 500), muteFlag := true }) s)

/-- MUTE entry when the tally has reached 128 (R41). -/
def checkTally (s : State) : State := if 128 ≤ s.link.tally then enterMute s else s

/-- The abort over: TX at 1, the transmitter QUIET, the tally up by 8 (R39, R41). -/
def quietAbort (l : Link) : Link := { l with transmitter := .quiet, abortDue := none, tally := l.tally + 8 }

/-- The rest of an abort's end (R39, R41). Which of the MUTE entry and the frame's return is taken first the spec does not
say: a free value (notes/assumptions/8.md). -/
def settleAbort (s : State) : State :=
  if Config.muteBeforeReturn s.micros then returnInHand (checkTally s) else checkTally (returnInHand s)

/-- ABORT_END (R39). -/
def execAbortEnd (s : State) : Outcome State Fault Refusal :=
  .next (if s.link.transmitter == .abort && due s.micros s.link.abortDue then settleAbort (onLink quietAbort s) else s)

/-- The MUTE interval over: tally 0, link and receiver HUNT (R42). -/
def leaveMute (l : Link) : Link := { l with state := .hunt, receiver := .hunt, tally := 0, muteDue := none }

/-- MUTE_TIMER_EXPIRY (R42). -/
def execMuteTimerExpiry (s : State) : Outcome State Fault Refusal :=
  .next (if s.link.state == .mute && due (ms s) s.link.muteDue then onLink leaveMute s else s)

/-! ## Success (R40) -/

/-- A frame sent to completion (R40): the tally down by 1, the transmitter QUIET, the receiver HUNT, the echo copy held. -/
def sendDone (e : TxEntry) (l : Link) : Link :=
  holdFrame ⟨.self, e.header, e.seq, e.payload⟩
    { l with tally := l.tally - 1, transmitter := .quiet, receiver := .hunt, inHand := none }

/-- TRANSMIT_SUCCESS (R40, R57, R58): the frame is finished, and an event's freed place may carry the notice owed. -/
def execTransmitSuccess (s : State) : Outcome State Fault Refusal :=
  .next (if s.link.transmitter == .send then
    (match s.link.inHand with
      | some e => if isEvent e then freePlace (onLink (sendDone e) s) else onLink (sendDone e) s
      | none => s) else s)

end Sys2Proof.Machine
end

