-- ==== Sys2Proof/Machine/PeerPicture.lean ====
section
/-! DEFINITION. The Rule Filter, the Peer Picture, the Event Queue and the Event Handler (spec/01). -/

namespace Sys2Proof.Machine

open Host (Outcome)

/-! ## The filter pass (R3–R8, R21, R22) -/

/-- The first entry of an event queue not labelled HALT_IN removed, the entries behind it closing up; none if there is none
(R22). -/
def displaceOldest : List EventEntry → Option (List EventEntry)
  | [] => none
  | x :: rest => if x.label = .haltIn then (displaceOldest rest).map (x :: ·) else some rest

/-- An append to the event queue (R21, R22). -/
def appendEvent (e : EventEntry) (p : Picture) : Picture :=
  if p.events.length < 16 then { p with events := p.events ++ [e] }
  else
    let events :=
      if e.label = .haltIn then
        match displaceOldest p.events with
        | some l => l ++ [e]
        | none => p.events
      else p.events
    { p with events := events, eventOverrun := true }

/-- The queue entry a rule's match makes of a frame (R7, R21). -/
def eventOf (r : Rule) (f : HeldFrame) : EventEntry := ⟨ruleLabel r, f.header, f.seq, f.payload⟩

/-- The frame at the head leaves the holding queue (R3). -/
def dropHead (s : State) : State := onLink (fun l => { l with holding := l.holding.tail }) s

/-- A state with its picture changed. -/
def onPicture (f : Picture → Picture) (s : State) : State := s.withPicture (f s.picture)

/-- The address check (R4): a frame of origin OTHERS with this station's address 0–14 as source. -/
def addressConflict (s : State) (f : HeldFrame) : Bool :=
  f.origin == .others && s.loader.address != 15 && headerSource f.header == s.loader.address

/-- Delivery as the matching rule's destination says (R6, R7). -/
def deliver (i : Fin 24) (f : HeldFrame) (s : State) : State :=
  let r := s.picture.table[i]
  if headerLength f.header < r.minLength.toNat then
    dropHead (onPicture (fun p => { p with shortPayload := true }) s)
  else
    match ruleDestination r with
    | .queue => dropHead (onPicture (appendEvent (eventOf r f)) s)
    | .slot => onPicture (fun p => { p with store := some i }) s
    | .slotAndQueue => onPicture (fun p => { appendEvent (eventOf r f) p with store := some i }) s

/-- A whole pass up to its end or the beginning of a store (R4–R7). -/
def filterFrame (f : HeldFrame) (s : State) : State :=
  let checked := if addressConflict s f then reportCause .addressConflict s else s
  match matchingRule checked.picture.table f with
  | none => dropHead checked
  | some i => deliver i f checked

/-- FILTER_PASS (R3, R5): taken when a frame is held and no pass is in flight. -/
def execFilterPass (s : State) : Outcome State Fault Refusal :=
  .next (if sampling s && s.picture.store.isNone then
    (match s.link.holding.head? with
      | some f => filterFrame f s
      | none => s) else s)

/-! ## Slots (R9–R16) -/

/-- The record a store writes (R11, R12, R14). -/
def storeRecord (now : Nat) (i : Fin 24) (r : Rule) (f : HeldFrame) : SlotRecord where
  age := .fresh
  rule := i
  header := f.header
  seq := f.seq
  payload := f.payload.take 12
  arrival := now
  deadline := some (now + ruleAgeLimit r)

/-- The gap check (R13). -/
def gapFound (old : Option SlotRecord) (f : HeldFrame) : Bool :=
  match old with
  | some r => headerSource r.header == headerSource f.header && f.seq != r.seq + 1
  | none => false

/-- A store into one slot (R11–R14). -/
def storeSlot (now : Nat) (i : Fin 24) (r : Rule) (f : HeldFrame) (x : Slot) : Slot where
  record := some (storeRecord now i r f)
  gap := x.gap || gapFound x.record f

/-- The store in flight completes and the pass ends (R3, R11). -/
def finishStore (now : Nat) (i : Fin 24) (f : HeldFrame) (p : Picture) : Picture :=
  let r := p.table[i]
  { p with
    store := none
    slots :=
      if h : r.slotNumber.toNat < 32 then p.slots.set r.slotNumber.toNat (storeSlot now i r f p.slots[r.slotNumber.toNat])
      else p.slots }

/-- STORE_COMPLETE (R11). -/
def execStoreComplete (s : State) : Outcome State Fault Refusal :=
  .next (match s.picture.store, s.link.holding.head? with
    | some i, some f => dropHead (onPicture (finishStore (ms s) i f) s)
    | _, _ => s)

/-- A record whose deadline passes (R15): FRESH to AGED with the deadline moved on by the age limit, AGED to LOST with
none. -/
def ageRecord (table : Vector Rule 24) (r : SlotRecord) : SlotRecord :=
  match r.age with
  | .fresh => { r with age := .aged, deadline := r.deadline.map (· + ruleAgeLimit table[r.rule]) }
  | .aged => { r with age := .lost, deadline := none }
  | .lost => r

/-- SLOT_DEADLINE (R15). -/
def execSlotDeadline (slot : Fin 32) (s : State) : Outcome State Fault Refusal :=
  .next (match s.picture.slots[slot].record with
    | some r =>
      if due (ms s) r.deadline then
        onPicture (fun p => { p with slots := p.slots.set slot ⟨some (ageRecord p.table r), p.slots[slot].gap⟩ }) s
      else s
    | none => s)

/-! ## The Event Handler (R23, R24) -/

/-- The target field of a CLEAR or QUERY; 0 beyond the payload (R24). -/
def targetOf (e : EventEntry) : Nat := byteAt e.payload 0

/-- A NOTICE handed to the console duty (R178). -/
def lightLamp (s : State) : State := s.withConsole { s.console with lampDeadline := some (ms s + 5000) }

/-- An entry handed to the owner that its label, topic and target name, or discarded (R24). -/
def handEntry (e : EventEntry) (s : State) : State :=
  let topic := headerTopic e.header
  let mine := targetOf e = s.loader.address.toNat
  if e.label = .haltIn ∧ topic = topicNumber .halt then reportCause .peerHalt s
  else if e.label = .controlIn ∧ topic = topicNumber .clear ∧ (mine ∨ targetOf e = 15) then
    takeClear (clearItems e.payload) s
  else if e.label = .controlIn ∧ topic = topicNumber .query ∧ mine ∧ targetOf e ≠ 15 then
    requestEvent .report (reportRecord s (byteAt e.payload 1)) s
  else if e.label = .noticeIn ∧ topic = topicNumber .notice ∧ s.duties.console then lightLamp s
  else s

/-- EVENT_HANDLER_TAKE (R23). -/
def execEventHandlerTake (s : State) : Outcome State Fault Refusal :=
  .next (match s.picture.events with
    | e :: rest => if sampling s then handEntry e (onPicture (fun p => { p with events := rest }) s) else s
    | [] => s)

end Sys2Proof.Machine
end

