-- ==== Sys2Proof/Machine/Scheduler.lean ====
section
/-! DEFINITION. The Publication Scheduler's own timers (spec/03): a cyclic topic's period, and the CONFIG_BAD timer of
CONFIG_FAULT. -/

namespace Sys2Proof.Machine

open Host (Outcome)

/-- PERIOD_TIMER_EXPIRY (R54): the timer restarts with its full period from this expiry, and the topic is published. -/
def execPeriodTimerExpiry (topic : CyclicTopic) (s : State) : Outcome State Fault Refusal :=
  .next (match s.pub.timers[cyclicIndex topic] with
    | some t =>
      if operating s && publishes s.duties topic && decide (t ≤ ms s) then
        startPeriod topic t (publishCyclic topic s) else s
    | none => s)

/-- CONFIG_BAD_TIMER_EXPIRY (R60): the 1000 ms timer restarts from this expiry and a NOTICE CONFIG_BAD is asked for. -/
def execConfigBadTimerExpiry (s : State) : Outcome State Fault Refusal :=
  .next (match s.pub.configBadDue with
    | some t =>
      if s.loader.station == .configFault && decide (t ≤ ms s) then
        requestConfigBad (s.withPub { s.pub with configBadDue := some (t + 1000) }) else s
    | none => s)

/-! ## Time -/

/-- One microsecond passes (spec/00, Time; R108): what is owed at this instant is settled (R58), and the time base counts while
the station is not held in reset (notes/assumptions/1.md). -/
def passMicrosecond (s : State) : State :=
  if s.held then s else { settleNotice s with micros := s.micros + 1 }

end Sys2Proof.Machine
end

