-- ==== Sys2Proof/Machine/WaterDuty.lean ====
section
/-! DEFINITION. The water duty's control period (spec/08). -/

namespace Sys2Proof.Machine

open Host (Outcome)

/-! ## Step 1: inputs (R151–R153) -/

/-- The width a slot labelled ARM_IN reports (R152). -/
def slotWidth (p : Picture) (slot : Fin 32) : Nat :=
  match p.slots[slot].record with
  | some r =>
    if recordHeard r && (headerTopic r.header == topicNumber .armA || headerTopic r.header == topicNumber .armB)
    then min 3000 (wordAt r.payload 4) else 0
  | none => 0

/-- The summed width, clamped to 6000 (R152). -/
def summedWidth (p : Picture) : Nat := min 6000 (((slotsOf p .armIn).map (slotWidth p)).sum)

/-- The rate, clamped to the rate maximum, 0 when the operator is not heard (R151). -/
def waterRate (s : State) : Nat :=
  match operatorRecord s with
  | some r => min s.params.water.rateMax (wordAt r.payload 5)
  | none => 0

/-- The speed, 0 when travel is not heard (R151). -/
def waterSpeed (s : State) : Nat :=
  match travelRecord s with
  | some r => travelSpeed r.payload
  | none => 0

/-- Whether the operator is heard asking for SWEEP (R153). -/
def sweepAsked (s : State) : Bool :=
  match operatorRecord s with
  | some r => modeOfCode (byteAt r.payload 0) == .sweep
  | none => false

/-- The active condition (R153). -/
def waterActive (s : State) : Bool :=
  sweepAsked s && 0 < waterRate s && 0 < summedWidth s.picture && (travelRecord s).isSome && !isSafe s

/-- Step 1 of a period. -/
def readWater (s : State) (w : Water) : Water :=
  { w with
    rate := waterRate s
    width := summedWidth s.picture
    speed := waterSpeed s
    active := waterActive s
    tank := tankValue s.inputs }

/-! ## Step 2: the tank (R154, R155) -/

/-- The dry flag at a tank level (R154). -/
def nextDry (emptyMark tank : Nat) (dry : Bool) : Bool :=
  if dry then !decide (emptyMark + 50 < tank) else decide (tank < emptyMark)

/-- The tank-low state BELOW at a tank level (R155). -/
def nextBelow (lowMark tank : Nat) (below : Bool) : Bool :=
  if below then !decide (lowMark + 50 ≤ tank) else decide (tank < lowMark)

/-- The dry flag and the tank-low state updated. -/
def updateTank (p : WaterParams) (w : Water) : Water :=
  { w with dry := nextDry p.emptyMark w.tank w.dry, tankBelow := nextBelow p.lowMark w.tank w.tankBelow }

/-- The NOTICE TANK_LOW of a fall below the low mark (R155); `was` is the tank-low state before. -/
def noticeTank (was : Bool) (s : State) : State :=
  if s.water.tankBelow && !was then requestNotice .tankLow (s.water.tank / 4) 0 s else s

/-! ## Step 3: transitions (R156–R159) -/

/-- Whether a stretch of ms has passed since the priming start at a period's expiry (R157). -/
def primedFor (w : Water) (expiry t : Nat) : Bool :=
  match w.priming with
  | some start => start + t ≤ expiry
  | none => false

/-- A PRIMING duty's next state (R157); `channel` is the FLOW channel's state and `flow` its value. -/
def primingNext (p : WaterParams) (w : Water) (channel : Option ChannelState) (flow expiry : Nat) : WaterState :=
  if !w.active then .off
  else if channel.isSome && channel != some .lost then
    if w.q ≤ flow * 2 then .spraying
    else if primedFor w expiry 5000 then .fault
    else .priming
  else if primedFor w expiry (p.primeTime * 100) then .spraying
  else .priming

/-- The state after step 3 (R156–R159). -/
def nextWater (p : WaterParams) (w : Water) (channel : Option ChannelState) (flow expiry : Nat) : WaterState :=
  if w.dry then .dry
  else
    match w.state with
    | .dry => .off
    | .off => if w.active && p.sprayMin ≤ w.speed then .priming else .off
    | .priming => primingNext p w channel flow expiry
    | .spraying => if !w.active then .off else if w.speed < p.sprayMin then .idle else .spraying
    | .idle => if !w.active then .off else if p.sprayMin ≤ w.speed then .spraying else .idle
    | .fault => .fault

/-- Step 3's move: a change of state entered; an entry to PRIMING sets the priming start to this period's expiry and starts the
trim from 0 (R156, R158). -/
def moveWater (now expiry : Nat) (st : WaterState) (w : Water) : Water :=
  if st = w.state then w
  else if st = .priming then { enterWater now st w with priming := some expiry, trim := 0 }
  else enterWater now st w

/-! ## Steps 4 to 6: setpoint, pump and valves (R162–R166) -/

/-- The rounded flow (R162). -/
def roundedFlow (w : Water) : Nat := (w.rate * w.width * w.speed + 500000) / 1000000

/-- The trim of a running duty (R164). -/
def nextTrim (p : WaterParams) (channel : Option ChannelState) (q flow : Nat) (trim : Int) : Int :=
  match channel with
  | some .tracking => clampInt (-200) 200 (trim + Int.tdiv (((q : Int) - flow) * p.kq) 256)
  | some .oneMissing => trim
  | some .stopped => trim
  | some .lost => 0
  | none => 0

/-- The tied arm's slot: the lowest-numbered ARM_IN slot that is FRESH or AGED, from the tie's station and of the tied unit's
topic (R166). -/
def tiedSlot (p : Picture) (station : BitVec 4) (u : ArmUnit) : Option (Fin 32) :=
  (slotsOf p .armIn).find? fun n =>
    match p.slots[n].record with
    | some r =>
      recordHeard r && headerSource r.header == station
        && headerTopic r.header == topicNumber (cyclicTopic (armTopic u))
    | none => false

/-- Whether a spray valve is open while the water runs (R166). An entry with no valve has no level. -/
def valveOpen (p : Picture) (v : SprayValve) : Bool :=
  v.line.isSome &&
    match v.tie with
    | .always => true
    | .arm station u =>
      match tiedSlot p station u with
      | some n => 0 < slotWidth p n
      | none => false

/-- Steps 4 to 6 of a period for the state step 3 left (R162–R166). -/
def formWater (p : WaterParams) (pic : Picture) (channel : Option ChannelState) (flow now : Nat) (w : Water) : Water :=
  if waterRuns w.state then
    let q := min p.qMax (roundedFlow w)
    let trim := nextTrim p channel q flow w.trim
    { setPump now (clampNat 1000 ((q * p.kw / 1000 : Nat) + trim)) w with
      q := q
      saturated := decide (p.qMax < roundedFlow w)
      trim := trim
      valves := Vector.ofFn fun i => valveOpen pic p.sprays[i] }
  else restWater now w

/-! ## The period (R150) -/

/-- A whole water period (R150): its results together, then the claim; a change of state asks for WATER. -/
def waterPeriod (expiry : Nat) (s : State) : State :=
  let p := s.params.water
  let channel := fnState s .flow
  let flow := fnValue s .flow
  let read := { updateTank p (readWater s s.water) with due := some (expiry + 20) }
  let st := if operating s then nextWater p read channel flow expiry else read.state
  let formed := formWater p s.picture channel flow s.micros (moveWater s.micros expiry st read)
  let worked := reformWaterClaim (noticeTank s.water.tankBelow (s.withWater formed))
  if st = s.water.state then worked else requestCyclic .water worked

/-- WATER_PERIOD_EXPIRY (R150). -/
def execWaterPeriodExpiry (s : State) : Outcome State Fault Refusal :=
  .next (match s.water.due with
    | some t => if dutiesRun s && s.duties.water && decide (t ≤ ms s) then waterPeriod t s else s
    | none => s)

end Sys2Proof.Machine
end

