-- ==== Sys2Proof/Machine/StartUp.lean ====
section
/-! DEFINITION. Start-up (spec/11): station reset, the image read, CONFIG_FAULT, the entry to JOINING and the entry to
OPERATING. -/

namespace Sys2Proof.Machine

open Host (Outcome)

/-! ## CONFIG_FAULT (R200) -/

/-- The link as the station leaves CONFIGURING (R25, R45): HUNT, the receiver sampling in HUNT at a bit rate, the transmitter
QUIET with no frame in hand. -/
def openLink (rate : Option BitRate) (l : Link) : Link :=
  { l with bitRate := rate, receiver := .hunt, state := .hunt, transmitter := .quiet, inHand := none }

/-- The scheduler at the entry to CONFIG_FAULT (R60, R64): nothing listed or deferred, the period timers stopped, the CONFIG_BAD
timer started. -/
def faultPub (now : Nat) (p : Publication) : Publication :=
  { p with list := [], deferred := [], timers := Vector.replicate 6 none, configBadDue := some (now + 1000) }

/-- Entry to CONFIG_FAULT (R60, R200): validity failed, the code kept, the receiver at 250 kbit/s, the CONFIG_BAD timer started,
and the cause CONFIG_BAD taken by Safe Control. The image CRC stays none (R200). -/
def enterConfigFault (code : CheckCode) (s : State) : State :=
  let loaded := s.withLoader { s.loader with station := .configFault, validity := .failed, failedCheck := some code }
  reportCause .configBad ((loaded.withLink (openLink (some .k250) s.link)).withPub (faultPub (ms s) s.pub))

/-! ## Reset (R195) and the image read (R196) -/

/-- A state's waiting commands carried over a reset: they stand outside the part. -/
def keepPending (s t : State) : State := { t with pending := s.pending }

/-- The image read's start: one more attempt (R196). -/
def startRead (s : State) : State := s.withLoader { s.loader with attempts := s.loader.attempts + 1 }

/-- The end of a reset with the straps sampled (R195). -/
def resetWith (straps : BitVec 4) : State :=
  let s := State.atReset false straps
  if straps = 15 then enterConfigFault .address s else startRead s

/-- STATION_RESET (R195). -/
def execStationReset (straps : BitVec 4) (s : State) : Outcome State Fault Refusal := .next (keepPending s (resetWith straps))

/-- RESET_ASSERTED (R195): the station held in reset, every block at its station reset value. -/
def execResetAsserted (s : State) : Outcome State Fault Refusal := .next (keepPending s State.reset)

/-- Whether an image read runs: in CONFIGURING, the reset over (R195, R196). -/
def reading (s : State) : Bool := s.loader.station == .configuring && !s.held

/-- IMAGE_READ_FAILED (R196): below three attempts the read starts again; at three the memory is missing. -/
def execImageReadFailed (s : State) : Outcome State Fault Refusal :=
  .next (if reading s then (if s.loader.attempts < 3 then startRead s else enterConfigFault .noMemory s) else s)

/-! ## The entry to JOINING (R201) -/

/-- Step 1 and the image CRC (R45, R197, R201): JOINING, the image valid, the receiver sampling in HUNT at the image's rate. -/
def joinLoader (m : Image) (s : State) : State :=
  let loaded := s.withLoader { s.loader with
    station := .joining
    validity := .valid
    imageCrc := some (imgCrc m)
    joinDue := some (ms s + 300) }
  loaded.withLink (openLink (bitRateOf (imgByte m 2)) s.link)

/-- Step 2: the subscription table and the hold set; with them the duty set and the parameters (R1, R180, R201). -/
def joinTables (m : Image) (s : State) : State :=
  { s with
    picture := { s.picture with table := imgTable m }
    safe := { s.safe with hold := imgHold m }
    duties := imgDuties m
    params := imgParams m }

/-- An analog input at the entry to JOINING: its first conversion, and the next due a millisecond on (R117, R118). -/
def firstConversion (fn : AnalogFn) (now reading : Nat) : AnalogInput :=
  let fresh : AnalogInput := ⟨fn, 0, true, 0, none, now + 1⟩
  if fn = .unused then fresh else convert reading fresh

/-- Step 3: the functions taken, the first conversions, switches off (R110, R121, R201). -/
def joinInputs (m : Image) (first : Vector Permille 4) (s : State) : State :=
  s.withInputs { s.inputs with
    pulse := Vector.ofFn fun i => ⟨imgPulseFn m i, .stopped, 0, none, none, 0⟩
    distance := 0
    remainder := 0
    analog := Vector.ofFn fun i => firstConversion (imgAnalogFn m i) (ms s) first[i].val
    switches := Vector.ofFn fun i => ⟨imgSwitchFn m i, false, 0, ms s + 1⟩ }

/-- The drive's start (R106, R201). -/
def startDrive (s : State) : State :=
  setDriveClaim (s.withDrive { State.resetDrive s.loader.address with due := some (ms s + 10) })

/-- The start state the stow check gives (R124). -/
def stowCheck (s : State) (u : ArmUnit) : ArmState × ArmFault :=
  let p := armParams s u
  if angleInRange s.inputs u then
    if p.stowLow ≤ angleValue s.inputs u ∧ angleValue s.inputs u ≤ p.stowHigh then (.stowed, .none) else (.fault, .notStowed)
  else (.fault, .angleRange)

/-- An arm unit's start (R124, R201): the stow check, the lines at their hold-set values, the deflect-off instant, the claim,
and the notice of an arm outside its stow band. -/
def startArm (u : ArmUnit) (s : State) : State :=
  let p := armParams s u
  let r := stowCheck s u
  let placed := s.withArm u { State.resetArm with
    state := r.1
    cause := r.2
    levels := holdLevels s.safe.hold p
    deflectOff := some (ms s)
    due := some (ms s + 20) }
  let claimed := setArmClaim u placed
  if r.2 = .notStowed then requestNotice .armNotStowed (unitCode u) (positionCode p.position) claimed else claimed

/-- The water duty's start (R154, R155, R169, R201): the tank flags from the first conversion, and the notice of a low tank. -/
def startWater (s : State) : State :=
  let fresh := { State.resetWater with tank := tankValue s.inputs, due := some (ms s + 20) }
  noticeTank false (setWaterClaim (s.withWater (updateTank s.params.water fresh)))

/-- Whether the PEDAL input's first conversion was out of range (R172). -/
def pedalOut (i : Inputs) : Bool :=
  match analogOf i .pedal with
  | some a => !a.inRange
  | none => false

/-- The PEDAL input's reading. -/
def pedalReading (i : Inputs) : Nat :=
  match analogOf i .pedal with
  | some a => a.reading
  | none => 0

/-- The console's start (R172, R179, R201). -/
def startConsole (s : State) : State :=
  let claimed := setConsoleClaim (s.withConsole { State.resetConsole with due := some (ms s + 20) })
  if pedalOut s.inputs then pedalNotice (pedalReading s.inputs) claimed else claimed

/-- Steps 4 and 5: each duty's start state, claim and control period timer (R201). -/
def startDuties (s : State) : State :=
  whenPresent s.duties.console startConsole <| whenPresent s.duties.water startWater
    <| whenPresent s.duties.armB (startArm .b) <| whenPresent s.duties.armA (startArm .a)
    <| whenPresent s.duties.drive startDrive s

/-- The entry to JOINING (R201). -/
def enterJoining (m : Image) (first : Vector Permille 4) (s : State) : State :=
  startDuties (joinInputs m first (joinTables m (joinLoader m s)))

/-- IMAGE_READ_COMPLETE (R196–R201): the CRC check, the field checks in their order, and CONFIG_FAULT or JOINING. -/
def execImageReadComplete (image : Vector Byte 1024) (first : Vector Permille 4) (s : State) :
    Outcome State Fault Refusal :=
  .next (if reading s then
    (match failedCheckOf image with
      | some code => enterConfigFault code s
      | none => enterJoining image first s) else s)

/-! ## The entry to OPERATING (R59, R203) -/

/-- A deferred event enqueued at its place (R59). -/
def enqueueDeferred (now : Nat) (l : List TxEntry) (e : TxEntry) : List TxEntry := insertNew { e with enqueued := some now } l

/-- The deferred events enqueued in the order they were asked (R59). -/
def enqueueAllDeferred (s : State) : State :=
  s.withPub { s.pub with list := s.pub.deferred.foldl (enqueueDeferred (ms s)) s.pub.list, deferred := [] }

/-- A cyclic topic's first frame and the start of its timer (R59). -/
def firstFrame (s : State) (t : CyclicTopic) : State :=
  if publishes s.duties t then startPeriod t (ms s) (publishCyclic t s) else s

/-- The entry to OPERATING (R203). -/
def enterOperating (s : State) : State :=
  let opened := s.withLoader { s.loader with station := .operating, joinDue := none }
  cyclicTopics.foldl firstFrame (enqueueAllDeferred opened)

/-- JOIN_TIMER_EXPIRY (R203). -/
def execJoinTimerExpiry (s : State) : Outcome State Fault Refusal :=
  .next (if s.loader.station == .joining && due (ms s) s.loader.joinDue then enterOperating s else s)

end Sys2Proof.Machine
end

