-- ==== Sys2Proof/Machine/Outputs.lean ====
section
/-! DEFINITION. What every output line carries (R83, R101, R102, R142, R166, R178, R181): Safe Control stands between the duties
and the pins, so a pin's level is computed from the duties' own outputs and the hold set. -/

namespace Sys2Proof.Machine

/-- The notice lamp is lit while a deadline is set (R178). -/
def lampLit (c : Console) : Bool := c.lampDeadline.isSome

/-- Whether a line field names a line, on a station that carries its duty. -/
def names {n : Nat} (present : Bool) (field : Option (Fin n)) (line : Fin n) : Bool := present && field == some line

/-- The arm line of a unit that a valve line is, if any. -/
def armLineOf (s : State) (u : ArmUnit) (line : Fin 16) : Option (Fin 4) :=
  (List.finRange 4).find? fun i => names (armPresent s u) (armParams s u).lines[i] line

/-- The spray valve that a valve line is, if any. -/
def sprayOf (s : State) (line : Fin 16) : Option (Fin 4) :=
  (List.finRange 4).find? fun i => names s.duties.water s.params.water.sprays[i].line line

/-- The level an arm asks of its line; in FAULT the line carries its hold-set value (R142). -/
def armLineLevel (s : State) (u : ArmUnit) (line : Fin 16) (i : Fin 4) : Bool :=
  if (s.arm u).state = .fault then s.safe.hold.valves.getLsbD line else (s.arm u).levels[i]

/-- The level a valve line's duty sets; a line with no role has its hold-set level (R181). -/
def dutyValve (s : State) (line : Fin 16) : Bool :=
  if names s.duties.drive s.params.drive.brakeLine line then s.drive.brakeOn
  else
    match armLineOf s .a line, armLineOf s .b line, sprayOf s line with
    | some i, _, _ => armLineLevel s .a line i
    | none, some i, _ => armLineLevel s .b line i
    | none, none, some i => s.water.valves[i]
    | none, none, none =>
      if names s.duties.console s.params.console.lampLine line then lampLit s.console
      else s.safe.hold.valves.getLsbD line

/-- The duty an arm asks of its brush line; in FAULT the line carries its hold-set value (R142). -/
def brushLineDuty (s : State) (u : ArmUnit) (line : Fin 8) : Nat :=
  if (s.arm u).state = .fault then s.safe.hold.pwm[line] else (s.arm u).pwm

/-- Whether a PWM line is one of the drive's coil lines. -/
def isCoil (s : State) (line : Fin 8) : Bool :=
  names s.duties.drive s.params.drive.fwdLine line || names s.duties.drive s.params.drive.revLine line

/-- The duty a coil line's drive computed (R99, R101). -/
def coilLine (s : State) (line : Fin 8) : Nat :=
  if names s.duties.drive s.params.drive.fwdLine line then s.drive.fwdDuty else s.drive.revDuty

/-- The duty a PWM line's duty sets; a line with no role has its hold-set duty (R181). -/
def dutyPwm (s : State) (line : Fin 8) : Nat :=
  if isCoil s line then coilLine s line
  else if names s.duties.armA s.params.armA.brushLine line then brushLineDuty s .a line
  else if names s.duties.armB s.params.armB.brushLine line then brushLineDuty s .b line
  else if names s.duties.water s.params.water.pumpLine line then s.water.pump
  else s.safe.hold.pwm[line]

/-- The level a valve line carries (R181). -/
def valvePin (s : State) (line : Fin 16) : Bool :=
  match s.loader.station with
  | .configuring | .configFault => false
  | .joining => s.safe.hold.valves.getLsbD line
  | .operating => if isSafe s then s.safe.hold.valves.getLsbD line else dutyValve s line

/-- The duty a PWM line carries (R181): while SAFE its hold-set value, except both coil lines while the drive is HALTING. -/
def pwmPin (s : State) (line : Fin 8) : Nat :=
  match s.loader.station with
  | .configuring | .configFault => 0
  | .joining => s.safe.hold.pwm[line]
  | .operating =>
    if isSafe s then
      if isCoil s line && s.drive.state == .halting then coilLine s line else s.safe.hold.pwm[line]
    else dutyPwm s line

/-- Whether the part holds TX at 0 for an abort (R39); in QUIET TX is 1 (R36, R45). -/
def abortDriven (s : State) : Bool := s.link.transmitter == .abort

end Sys2Proof.Machine
end

