-- ==== Sys2Proof/Machine/Dispatch.lean ====
section
/-! DEFINITION. One arm per command: each is one direct call of its meaning. -/

namespace Sys2Proof.Machine

open Host (Outcome)

def exec (i : Instr) (s : State) : Host.Outcome State Fault Refusal :=
  match i with
  | .stationReset straps => Sys2Proof.Machine.execStationReset straps s
  | .imageReadFailed => Sys2Proof.Machine.execImageReadFailed s
  | .imageReadComplete image first => Sys2Proof.Machine.execImageReadComplete image first s
  | .joinTimerExpiry => Sys2Proof.Machine.execJoinTimerExpiry s
  | .configBadTimerExpiry => Sys2Proof.Machine.execConfigBadTimerExpiry s
  | .idleSeen => Sys2Proof.Machine.execIdleSeen s
  | .framingError => Sys2Proof.Machine.execFramingError s
  | .receiveFrameComplete chars => Sys2Proof.Machine.execReceiveFrameComplete chars s
  | .transmitStart => Sys2Proof.Machine.execTransmitStart s
  | .arbitrationWon => Sys2Proof.Machine.execArbitrationWon s
  | .arbitrationLost => Sys2Proof.Machine.execArbitrationLost s
  | .transmitFault => Sys2Proof.Machine.execTransmitFault s
  | .abortEnd => Sys2Proof.Machine.execAbortEnd s
  | .transmitSuccess => Sys2Proof.Machine.execTransmitSuccess s
  | .muteTimerExpiry => Sys2Proof.Machine.execMuteTimerExpiry s
  | .filterPass => Sys2Proof.Machine.execFilterPass s
  | .storeComplete => Sys2Proof.Machine.execStoreComplete s
  | .slotDeadline slot => Sys2Proof.Machine.execSlotDeadline slot s
  | .eventHandlerTake => Sys2Proof.Machine.execEventHandlerTake s
  | .periodTimerExpiry topic => Sys2Proof.Machine.execPeriodTimerExpiry topic s
  | .drivePeriodExpiry => Sys2Proof.Machine.execDrivePeriodExpiry s
  | .pulseEdge ch => Sys2Proof.Machine.execPulseEdge ch s
  | .missingDeadline ch => Sys2Proof.Machine.execMissingDeadline ch s
  | .stopDeadline ch => Sys2Proof.Machine.execStopDeadline ch s
  | .watchDeadline ch => Sys2Proof.Machine.execWatchDeadline ch s
  | .analogConversion ai reading => Sys2Proof.Machine.execAnalogConversion ai reading s
  | .switchSample si low => Sys2Proof.Machine.execSwitchSample si low s
  | .armPeriodExpiry unit => Sys2Proof.Machine.execArmPeriodExpiry unit s
  | .waitTimeComplete unit => Sys2Proof.Machine.execWaitTimeComplete unit s
  | .stepDeadline unit => Sys2Proof.Machine.execStepDeadline unit s
  | .loadWindowExpiry unit => Sys2Proof.Machine.execLoadWindowExpiry unit s
  | .waterPeriodExpiry => Sys2Proof.Machine.execWaterPeriodExpiry s
  | .consolePeriodExpiry => Sys2Proof.Machine.execConsolePeriodExpiry s
  | .resetHoldTimerExpiry => Sys2Proof.Machine.execResetHoldTimerExpiry s
  | .lampDeadline => Sys2Proof.Machine.execLampDeadline s
  | .frameBegins => Sys2Proof.Machine.execFrameBegins s
  | .resetAsserted => Sys2Proof.Machine.execResetAsserted s

end Sys2Proof.Machine
end

