-- ==== Sys2Proof/Safety.lean ====
section
/-! DEFINITION. What counts as a sound station: the properties that the spec states of the machine at every moment, in the
terms that the statements use. Each is a property of one state; the statements say which of them every step keeps. -/

namespace Sys2Proof.Machine

/-! ## Carried duties (R47, R106, R148, R169, R200, R201) -/

/-- A station that has not entered JOINING carries no duty, and what it does not carry stays as at station reset (R106, R148,
R169). A deflect switch notes its release even without its arm, so the deflect-off instant is left out. -/
structure CarriedDutiesOnly (s : State) : Prop where
  noneYet : dutiesRun s = false → s.duties = ⟨false, false, false, false, false⟩
  drive : s.duties.drive = false → s.drive = State.resetDrive s.loader.address
  arm : ∀ u, armPresent s u = false → s.arm u = { State.resetArm with deflectOff := (s.arm u).deflectOff }
  water : s.duties.water = false → s.water = State.resetWater

/-! ## Queues (R3, R21, R33, R59) -/

/-- The bounds of the receive side and of the deferred events (R21, R33, R59), and that a store in flight belongs to a frame
at the head of the holding queue (R3). -/
structure QueuesBounded (s : State) : Prop where
  holding : s.link.holding.length ≤ 4
  events : s.picture.events.length ≤ 16
  deferred : s.pub.deferred.length ≤ 4
  store : s.picture.store.isSome = true → s.link.holding ≠ []

/-! ## Frames (R12, R17, R27, R32, R208) -/

/-- A payload is exactly as long as its header declares. -/
def declaresLength (header : Word16) (payload : List Byte) : Prop := payload.length = headerLength header

/-- Every frame held anywhere in the part carries as many payload bytes as it declares, and a peer slot holds the first
twelve of them (R12, R17, R32); a slot's deadline is absent exactly in LOST (R9). -/
structure FramesWhole (s : State) : Prop where
  holding : ∀ f ∈ s.link.holding, declaresLength f.header f.payload
  events : ∀ e ∈ s.picture.events, declaresLength e.header e.payload
  list : ∀ e ∈ s.pub.list, declaresLength e.header e.payload
  deferred : ∀ e ∈ s.pub.deferred, declaresLength e.header e.payload
  inHand : ∀ e ∈ s.link.inHand, declaresLength e.header e.payload
  slots : ∀ n : Fin 32, ∀ r ∈ s.picture.slots[n].record,
    r.payload.length = min 12 (headerLength r.header) ∧ (r.deadline = none ↔ r.age = .lost)

/-! ## The transmit list (R48, R53, R59) -/

/-- A cyclic frame of a topic that the station publishes, with the station's own header for it (R48). -/
def ownCyclic (s : State) (e : TxEntry) : Prop :=
  ∃ t, publishes s.duties t = true ∧ e.header = topicHeader (cyclicTopic t) s.loader.address

/-- The transmit list as R53 describes it: in header order, at most one pending entry for each cyclic topic the station
publishes, at most four events counting one in hand; and, by station state, what R59 lets stand in it. -/
structure TransmitListOrdered (s : State) : Prop where
  order : s.pub.list.Pairwise fun a b => a.header.toNat ≤ b.header.toNat
  cyclic : ∀ e ∈ s.pub.list, e.kind = .cyclic → ownCyclic s e
  once : s.pub.list.Pairwise fun a b => a.kind = .cyclic → b.kind = .cyclic → a.header ≠ b.header
  inHand : ∀ e ∈ s.link.inHand, e.kind = .cyclic → ownCyclic s e
  places : placesTaken s ≤ 4
  deferred : s.pub.deferred.length ≤ 4 ∧ ∀ e ∈ s.pub.deferred, e.kind = .event
  silent : s.loader.station = .configuring ∨ s.loader.station = .joining → s.pub.list = [] ∧ s.link.inHand = none
  notices : s.loader.station = .configFault →
    ∀ e, e ∈ s.pub.list ∨ e ∈ s.link.inHand → e.kind = .event ∧ headerTopic e.header = topicNumber .notice

/-! ## The link (R35, R36, R39, R41, R42, R45) -/

/-- The Link Controller's own consistency: the tally's bounds and MUTE (R41, R42), a transmitter that works only in ON with a
frame in hand (R36), and a link at rest in CONFIGURING (R45). -/
structure LinkConsistent (s : State) : Prop where
  tally : s.link.tally ≤ 135
  muted : 128 ≤ s.link.tally → s.link.state = .mute
  timer : s.link.state = .mute ↔ s.link.muteDue.isSome = true
  sending : s.link.transmitter ≠ .quiet → s.link.state = .on ∧ s.link.inHand.isSome = true
  quiet : s.link.transmitter = .quiet → s.link.inHand = none
  aborting : s.link.transmitter = .abort ↔ s.link.abortDue.isSome = true
  configuring : s.loader.station = .configuring →
    s.link.state = .hunt ∧ s.link.receiver = .hunt ∧ s.link.transmitter = .quiet ∧ s.link.tally = 0

/-! ## Claims (R65, R68, R167) -/

/-- Every duty carried holds a claim, and while the station is SAFE it is ceiling 0, urgency STOP, reason STATION_SAFE (R65,
R68). -/
structure ClaimsHeld (s : State) : Prop where
  drive : s.duties.drive = true → s.drive.claim.isSome = true ∧ (isSafe s = true → s.drive.claim = some safeClaim)
  arm : ∀ u, armPresent s u = true → (s.arm u).claim.isSome = true ∧ (isSafe s = true → (s.arm u).claim = some safeClaim)
  water : s.duties.water = true → s.water.claim.isSome = true ∧ (isSafe s = true → s.water.claim = some safeClaim)
  console : s.duties.console = true →
    s.console.claim.isSome = true ∧ (isSafe s = true → s.console.claim = some safeClaim)

/-! ## SAFE (R90, R128, R161) -/

/-- What stands still while the station is SAFE: every arm is STOWED or in FAULT (R128), the drive neither RUNNING nor
STANDING (R90), the water duty without flow and not active (R161). -/
structure SafeStill (s : State) : Prop where
  arms : isSafe s = true → ∀ u, (s.arm u).state = .stowed ∨ (s.arm u).state = .fault
  drive : isSafe s = true → s.drive.state ≠ .running ∧ s.drive.state ≠ .standing
  water : isSafe s = true →
    (s.water.state = .off ∨ s.water.state = .dry ∨ s.water.state = .fault) ∧ s.water.active = false

/-- What stands still in JOINING, where no duty takes a transition: the drive PARKED, the water duty OFF, every arm STOWED or in
FAULT, and not by a SAFE entry (R86, R124, R125, R150, R184). -/
structure JoiningStill (s : State) : Prop where
  drive : s.loader.station = .joining → s.drive.state = .parked
  water : s.loader.station = .joining → s.water.state = .off
  arms : s.loader.station = .joining →
    ∀ u, ((s.arm u).state = .stowed ∨ (s.arm u).state = .fault) ∧ (s.arm u).cause ≠ .stationSafe

/-! ## The drive (R94, R96, R97, R99, R100, R102) -/

/-- The drive within its bounds: V at most the mode maximum for its direction (R94), D within 0–1000 and everything at rest
outside RUNNING and HALTING (R100), A1 within its limit (R96), the direction's coil mapped from D and the other at 0 (R99),
the brake valve on exactly while it moves (R102). -/
structure DriveBounded (p : DriveParams) (d : Drive) : Prop where
  speed : d.v ≤ modeMax p d.mode d.direction
  measured : d.vm ≤ 6000
  displacement : d.d ≤ 1000
  accumulator : -(p.iLimit * 1024 : Int) ≤ d.a1 ∧ d.a1 ≤ p.iLimit * 1024
  rest : driveMoves d.state = false → d.v = 0 ∧ d.a1 = 0 ∧ d.d = 0 ∧ d.fwdDuty = 0 ∧ d.revDuty = 0
  forward : driveMoves d.state = true → d.direction = .forward → d.fwdDuty = coilDuty p d.d ∧ d.revDuty = 0
  reverse : driveMoves d.state = true → d.direction = .reverse → d.revDuty = coilDuty p d.d ∧ d.fwdDuty = 0
  brake : d.brakeOn = driveMoves d.state

/-! ## An arm unit (R128–R133, R140–R144) -/

/-- The list an arm state runs: one in DEPLOYING, RETRACTING, YIELDING and RESUMING, none elsewhere (R133). -/
def listOf : ArmState → ListName
  | .deploying => .deploy
  | .retracting => .retract
  | .yielding => .yield
  | .resuming => .resume
  | .stowed | .sweeping | .yielded | .fault => .none

/-- An arm unit within its bounds: its list is its state's and steps remaining do not exceed the list's length (R133), the brush
target at most the maximum rpm and everything 0 while it does not run (R142, R143), the load factor within 40–100 (R144), a
fault cause exactly in FAULT (R140, R141), the load window timer exactly in SWEEPING (R144). -/
structure ArmBounded (p : ArmParams) (a : Arm) : Prop where
  list : a.list = listOf a.state
  remaining : a.remaining ≤ (listSteps p a.list).length
  resting : a.list ≠ .none → 0 < a.remaining
  idle : a.list = .none → a.deadline = none ∧ a.record = .none
  still : brushRuns a = false → a.target = 0 ∧ a.trim = 0 ∧ a.pwm = 0
  turning : brushRuns a = true → a.target ≤ p.maxRpm ∧ a.pwm = brushPwm p a.target a.trim
  trim : -150 ≤ a.trim ∧ a.trim ≤ 150
  load : 40 ≤ a.load ∧ a.load ≤ 100
  cause : a.state = .fault ↔ a.cause ≠ .none
  stowed : a.state = .stowed → a.engaged = false
  window : a.loadDue.isSome = true ↔ a.state = .sweeping

/-! ## The water duty (R152, R157, R161–R164, R167) -/

/-- The water duty within its bounds: the setpoint at most Qmax and 0 unless PRIMING or SPRAYING (R162), with pump, trim,
saturated and valves at rest there too (R163, R164, R166), the priming start exactly in PRIMING (R157), and the law of the
capacity claim (R167). -/
structure WaterBounded (p : WaterParams) (w : Water) : Prop where
  setpoint : w.q ≤ p.qMax
  rest : waterRuns w.state = false →
    w.q = 0 ∧ w.saturated = false ∧ w.trim = 0 ∧ w.pump = 0 ∧ w.valves = Vector.replicate 4 false
  trim : -200 ≤ w.trim ∧ w.trim ≤ 200
  pump : w.pump ≤ 1000
  priming : w.priming.isSome = true ↔ w.state = .priming
  dry : w.state = .dry → w.dry = true
  inUse : w.rate ≤ p.rateMax ∧ w.width ≤ 6000 ∧ w.speed ≤ 6000
  active : w.active = true → 0 < w.rate ∧ 0 < w.width
  capacity : ∀ c ∈ w.claim, c.reason = .waterCapacity → w.rate * w.width * c.ceiling ≤ p.qMax * 1000000

/-! ## Terms of the statements -/

/-- The entry stands in the new list at its place by header, behind entries of equal header, all others as they stood (R53). -/
def PlacedBehind (e : TxEntry) (old new : List TxEntry) : Prop :=
  ∃ before after, old = before ++ after ∧ new = before ++ e :: after
    ∧ (∀ x ∈ before, x.header.toNat ≤ e.header.toNat) ∧ (∀ x ∈ after, e.header.toNat < x.header.toNat)

/-- The entry stands in the new list at its place by header, ahead of entries of equal header, all others as they stood (R57). -/
def PlacedAhead (e : TxEntry) (old new : List TxEntry) : Prop :=
  ∃ before after, old = before ++ after ∧ new = before ++ e :: after
    ∧ (∀ x ∈ before, x.header.toNat < e.header.toNat) ∧ (∀ x ∈ after, e.header.toNat ≤ x.header.toNat)

/-- A pending cyclic entry of a header stands in a list. -/
def PendingCyclic (h : Word16) (l : List TxEntry) : Prop := ∃ x ∈ l, x.kind = .cyclic ∧ x.header = h

/-- What the list is after a frame comes back not sent, as the table of R57 has it. -/
def Returned (e : TxEntry) (old new : List TxEntry) : Prop :=
  match e.kind with
  | .cyclic => (PendingCyclic e.header old → new = old) ∧ (¬PendingCyclic e.header old → PlacedBehind e old new)
  | .event => PlacedAhead e old new

/-- A list in header order (R53). -/
def HeaderOrder (l : List TxEntry) : Prop := l.Pairwise fun a b => a.header.toNat ≤ b.header.toNat

/-- A rule matches a frame: in use, of the frame's origin, and equal to the header in every bit its mask marks; the twelve bits
are the header's first twelve (R2, R5). -/
def RuleMatches (r : Rule) (f : HeldFrame) : Prop :=
  r.inUse = true ∧ r.origin = f.origin
    ∧ ∀ k, k < 12 → r.mask.getLsbD k = true → r.matchValue.getLsbD k = f.header.getLsbD (k + 4)

/-- The first rule that matches, in index order (R5). -/
def FirstMatch (table : Vector Rule 24) (f : HeldFrame) (i : Fin 24) : Prop :=
  RuleMatches table[i] f ∧ ∀ j : Fin 24, j < i → ¬RuleMatches table[j] f

/-- A cause's condition has gone (R182). -/
def CauseGone (s : State) : Cause → Prop
  | .haltButton => haltPressed s = false
  | .peerHalt => True
  | .linkMute => s.link.state = .on
  | .addressConflict => False
  | .configBad => False

/-- The station as it stands in CONFIG_FAULT after a check failed in CONFIGURING (R25, R45, R60, R64, R182, R200). -/
def configFaultFrom (code : CheckCode) (s : State) : State :=
  { s with
    loader := { s.loader with station := .configFault, validity := .failed, failedCheck := some code }
    link := { s.link with
      bitRate := some .k250, state := .hunt, receiver := .hunt, transmitter := .quiet, inHand := none }
    pub := { s.pub with
      list := [], deferred := [], timers := Vector.replicate 6 none, configBadDue := some (s.micros / 1000 + 1000) }
    safe := { s.safe with causes := { s.safe.causes with configBad := true } } }

/-! ### Requests for events (R48, R56, R58, R59) -/

/-- The event frame that a request builds at this instant, with its topic's next number (R48, R56). -/
def builtEvent (s : State) (topic : Topic) (payload : List Byte) : TxEntry :=
  ⟨.event, topicHeader topic s.loader.address, s.pub.nextSeq[topicIndex topic], payload, some (s.micros / 1000)⟩

/-- Of the events of a list the one that a HALT displaces: not itself a HALT, of the highest header, and the last of equal ones
(R58, R59). -/
def GivesWay (before : List TxEntry) (x : TxEntry) (after : List TxEntry) : Prop :=
  x.kind = .event ∧ headerTopic x.header ≠ topicNumber .halt
    ∧ (∀ y ∈ before, y.kind = .event → y.header.toNat ≤ x.header.toNat)
    ∧ (∀ y ∈ after, y.kind = .event → y.header.toNat < x.header.toNat)

/-- No event of a list is anything but a HALT. -/
def OnlyHalts (l : List TxEntry) : Prop := ∀ y ∈ l, y.kind = .event → headerTopic y.header = topicNumber .halt

/-- What the scheduler is after a block has asked for an event. In OPERATING, on a list in header order, it joins the list at its
place; with the four places taken a HALT displaces the highest event that is not a HALT, and any other event, or a HALT among
HALTs, is discarded, with flag, count and topic. In JOINING the same holds of the deferred events, where it joins the tail. In
CONFIGURING and CONFIG_FAULT nothing comes of it (R48, R56, R58, R59, R60). -/
def AskedEvent (s : State) (topic : Topic) (payload : List Byte) (p : Publication) : Prop :=
  let e := builtEvent s topic payload
  let built := { s.pub with
    nextSeq := s.pub.nextSeq.set (topicIndex topic) (s.pub.nextSeq[topicIndex topic] + 1) }
  let drops (number : Nat) : Publication :=
    { built with droppedFlag := true, dropped := min 255 (s.pub.dropped + 1), lastDropped := number }
  match s.loader.station with
  | .operating => HeaderOrder s.pub.list →
      (placesTaken s < 4 → ∃ l, PlacedBehind e s.pub.list l ∧ p = { built with list := l })
      ∧ (4 ≤ placesTaken s →
        (∀ before x after, s.pub.list = before ++ x :: after → topic = .halt → GivesWay before x after →
          ∃ l, PlacedBehind e (before ++ after) l ∧ p = { drops (headerTopic x.header) with list := l })
        ∧ (topic ≠ .halt ∨ OnlyHalts s.pub.list → p = drops (topicNumber topic)))
  | .joining =>
      (s.pub.deferred.length < 4 → p = { built with deferred := s.pub.deferred ++ [e] })
      ∧ (4 ≤ s.pub.deferred.length →
        (∀ before x after, s.pub.deferred = before ++ x :: after → topic = .halt → GivesWay before x after →
          p = { drops (headerTopic x.header) with deferred := before ++ after ++ [e] })
        ∧ (topic ≠ .halt ∨ OnlyHalts s.pub.deferred → p = drops (topicNumber topic)))
  | .configuring | .configFault => p = s.pub

/-- Two states of the scheduler that agree on everything of its events: those pending in their order, those deferred, the dropped
count, topic and flag, and the next number of every event topic. -/
structure SameEvents (p q : Publication) : Prop where
  pending : q.list.filter (fun e => e.kind == .event) = p.list.filter (fun e => e.kind == .event)
  deferred : q.deferred = p.deferred
  dropped : q.dropped = p.dropped ∧ q.lastDropped = p.lastDropped ∧ q.droppedFlag = p.droppedFlag
  numbers : ∀ topic ∈ [Topic.halt, .notice, .clear, .report], q.nextSeq[topicIndex topic] = p.nextSeq[topicIndex topic]

/-- An event asked for in a command that may publish cyclic topics beside it. -/
def AsksEvent (s : State) (topic : Topic) (payload : List Byte) (p : Publication) : Prop :=
  ∃ q, AskedEvent s topic payload q ∧ SameEvents q p

/-! ### Reads by label (R10, R18, R19) -/

/-- A rule that names a slot: in use, with a destination that stores, and with the slot's number (R10). -/
def NamesSlot (p : Picture) (n : Fin 32) (i : Fin 24) : Prop :=
  (p.table[i]).inUse = true ∧ ruleDestination p.table[i] ≠ .queue ∧ (p.table[i]).slotNumber.toNat = n.val

/-- The rule that a slot takes its label and required marking from: the recorded one, or an EMPTY slot's lowest-numbered naming
rule (R10). -/
def GovernsSlot (p : Picture) (n : Fin 32) (i : Fin 24) : Prop :=
  match (p.slots[n]).record with
  | some r => i = r.rule
  | none => NamesSlot p n i ∧ ∀ j, j < i → ¬NamesSlot p n j

/-- The record a duty reads of a label taken as one slot: that of the lowest-numbered slot of the label, FRESH or AGED and of the
label's own topic (R18, R19). -/
def ReadAsOne (p : Picture) (l : Label) (topic : Topic) (r : SlotRecord) : Prop :=
  ∃ n, slotLabel p n = some l ∧ (∀ m, m < n → slotLabel p m ≠ some l) ∧ (p.slots[n]).record = some r
    ∧ r.age ≠ .lost ∧ headerTopic r.header = topicNumber topic

/-- The slot a spray valve's tie finds: the lowest-numbered slot labelled ARM_IN that is FRESH or AGED, from the tie's station
and of the tied unit's topic (R166). -/
def TiedSlot (p : Picture) (station : BitVec 4) (u : ArmUnit) (n : Fin 32) : Prop :=
  let ties (m : Fin 32) := slotLabel p m = some .armIn ∧ ∃ r, (p.slots[m]).record = some r ∧ r.age ≠ .lost
    ∧ headerSource r.header = station ∧ headerTopic r.header = match u with | .a => 5 | .b => 6
  ties n ∧ ∀ m, m < n → ¬ties m

/-! ### Cyclic records (R146, R207, R208) -/

/-- Fields spelled as bytes. -/
def spelled (fields : List Nat) : List Byte := fields.map (BitVec.ofNat 8)

/-- A field of two bytes, most significant first (R205). -/
def twoBytes (n : Nat) : List Nat := [n / 256, n % 256]

/-- The code of a reason in R207's order. -/
def reasonIn207 (r : Reason) : Nat :=
  [Reason.none, .mode, .armMoving, .armYield, .brushCapacity, .brushLoad, .waterCapacity, .tankEmpty, .armFault, .wheelSensor,
    .reverseLimit, .stationSafe, .peerLost, .agedCreep, .operatorLost].idxOf r

/-- The code of an arm request in R207's order. -/
def requestIn207 (r : ArmRequest) : Nat := [ArmRequest.hold, .deploy, .retract].idxOf r

/-- The payload of an ARM_A or ARM_B frame (R146, R147, R207, R208). -/
def armBytes (s : State) (u : ArmUnit) : List Byte :=
  let a := s.arm u
  let p := armParams s u
  let width := match a.state with
    | .sweeping => p.sweepWidth
    | .yielding | .yielded => p.yieldWidth
    | .deploying | .resuming => if a.brushOnRun = true then p.sweepWidth else 0
    | .stowed | .retracting | .fault => 0
  spelled ([[Position.left, .right, .main, .aux].idxOf p.position,
      [ArmState.stowed, .deploying, .sweeping, .yielding, .yielded, .resuming, .retracting, .fault].idxOf a.state,
      [ListName.none, .deploy, .retract, .yield, .resume].idxOf a.list, a.remaining]
    ++ twoBytes width ++ twoBytes a.target ++ twoBytes (fnValue s (brushFn u))
    ++ [a.load, [ArmFault.none, .stepTimeout, .angleRange, .brushSensor, .stationSafe, .notStowed].idxOf a.cause])

/-- The payload of a cyclic frame built from a station's state, byte by byte (R49, R50, R51, R104, R147, R168, R175, R207,
R208). -/
def RecordBytes (s : State) (payload : List Byte) : CyclicTopic → Prop
  | .pace => ∀ duty c, combinedClaim s = some (duty, c) → payload = spelled
      ([[Duty.drive, .armA, .armB, .water, .console].idxOf duty] ++ twoBytes c.ceiling
        ++ [[Urgency.normal, .prompt, .stop].idxOf c.urgency, reasonIn207 c.reason])
  | .travel => payload = spelled
      (twoBytes s.drive.vm ++ twoBytes s.drive.v
        ++ [[Direction.forward, .reverse].idxOf s.drive.direction,
            [DriveState.parked, .standing, .running, .halting, .held].idxOf s.drive.state,
            s.inputs.distance.toNat / 65536 % 256, s.inputs.distance.toNat / 256 % 256, s.inputs.distance.toNat % 256]
        ++ twoBytes s.drive.pace.ceiling ++ [s.drive.pace.source.toNat * 16 + reasonIn207 s.drive.pace.reason])
  | .operator => payload = spelled
      ([[Mode.park, .transport, .sweep].idxOf s.console.mode, [Direction.forward, .reverse].idxOf s.console.direction]
        ++ twoBytes s.console.pedal
        ++ [requestIn207 s.console.requests.left * 64 + requestIn207 s.console.requests.right * 16
            + requestIn207 s.console.requests.main * 4 + requestIn207 s.console.requests.aux]
        ++ twoBytes s.console.rate)
  | .armA => payload = armBytes s .a
  | .armB => payload = armBytes s .b
  | .water => payload = spelled
      ([[WaterState.off, .priming, .spraying, .idle, .dry, .fault].idxOf s.water.state]
        ++ twoBytes s.water.q ++ twoBytes (fnValue s .flow) ++ twoBytes s.water.tank ++ twoBytes s.water.rate
        ++ twoBytes s.water.width
        ++ [(if s.water.saturated = true then 2 else 0) + (if s.water.dry = true then 1 else 0)])

/-! ### Cyclic frames (R54, R55, R70) -/

/-- What the scheduler is after one frame of a cyclic topic is built from a station: the next number used, the period timer run
from an instant, and, on a list in header order, a new entry at its place; or, when one is pending, that entry rebuilt in its
place, and late. A PACE sets the last PACE urgency (R48, R54, R55, R56). -/
def BuiltCyclic (s : State) (topic : CyclicTopic) (start : Nat) (p : Publication) : Prop :=
  let header := topicHeader (cyclicTopic topic) s.loader.address
  let number := s.pub.nextSeq[topicIndex (cyclicTopic topic)]
  let restarted := { s.pub with
    nextSeq := s.pub.nextSeq.set (topicIndex (cyclicTopic topic)) (number + 1)
    timers := s.pub.timers.set (cyclicIndex topic) (some (start + s.params.periods[cyclicIndex topic] * 10))
    lastUrgency := if topic = CyclicTopic.pace then combinedUrgency s else s.pub.lastUrgency }
  ∃ payload, RecordBytes s payload topic
    ∧ (let frame : TxEntry := ⟨.cyclic, header, number, payload, none⟩
      (¬PendingCyclic header s.pub.list → HeaderOrder s.pub.list →
        ∃ l, PlacedBehind frame s.pub.list l ∧ p = { restarted with list := l })
      ∧ (PendingCyclic header s.pub.list → p = { restarted with
          list := s.pub.list.map fun (x : TxEntry) => if x.kind = Kind.cyclic ∧ x.header = header then frame else x
          late := true }))

/-- The combined urgency of a station is above the urgency of the last PACE, where PACE can go out: OPERATING, with a duty (R47,
R55, R59, R70). -/
def UrgencyRises (s : State) (last : Urgency) : Prop :=
  s.loader.station = .operating ∧ publishes s.duties .pace = true ∧ urgencyCode last < urgencyCode (combinedUrgency s)

/-- What the scheduler is after the claims of a station have changed once: a rise of urgency builds PACE at once, and nothing else
does anything (R55, R70). -/
def ClaimPublished (s : State) (p : Publication) : Prop :=
  (UrgencyRises s s.pub.lastUrgency → BuiltCyclic s .pace (s.micros / 1000) p)
  ∧ (¬UrgencyRises s s.pub.lastUrgency → p = s.pub)

/-- A pending frame of a cyclic topic carries its owner as it is now, with the topic's latest number, and the topic's period timer
runs from now (R54, R55). -/
def Announced (s : State) (topic : CyclicTopic) : Prop :=
  s.pub.timers[cyclicIndex topic] = some (s.micros / 1000 + s.params.periods[cyclicIndex topic] * 10)
  ∧ ∃ e ∈ s.pub.list, e.kind = .cyclic ∧ e.header = topicHeader (cyclicTopic topic) s.loader.address
    ∧ RecordBytes s e.payload topic ∧ s.pub.nextSeq[topicIndex (cyclicTopic topic)] = e.seq + 1

/-- An arm's own frame announced (R55, R134, R147). -/
def ArmAnnounced (s : State) (u : ArmUnit) : Prop := Announced s (match u with | .a => .armA | .b => .armB)

/-- PACE between two states of a station whose claims change once: announced at a rise of urgency above the last PACE's, which it
then carries, and not built otherwise (R55, R70). -/
def PaceRises (s t : State) : Prop :=
  (UrgencyRises t s.pub.lastUrgency → Announced t .pace ∧ t.pub.lastUrgency = combinedUrgency t)
  ∧ (¬UrgencyRises t s.pub.lastUrgency → t.pub.lastUrgency = s.pub.lastUrgency
    ∧ t.pub.nextSeq[topicIndex .pace] = s.pub.nextSeq[topicIndex .pace]
    ∧ t.pub.timers[cyclicIndex .pace] = s.pub.timers[cyclicIndex .pace])

/-! ### SAFE entry (R68, R90, R140, R161, R184) -/

/-- What a SAFE entry does to the duties, whichever cause made it: every claim 0, STOP, STATION_SAFE, and PACE at once unless the
last urgency was STOP already; a RUNNING drive HALTING and a STANDING one HELD; every arm neither STOWED nor in FAULT in FAULT
with cause STATION_SAFE, its list abandoned, its lines at the hold set and its brush at rest, announced in OPERATING; a PRIMING,
SPRAYING or IDLE water duty OFF and shut, announced in OPERATING (R55, R68, R90, R140, R161, R184). -/
structure SafeEntered (s t : State) : Prop where
  drive : t.drive = { s.drive with
    state := match s.drive.state with | .running => .halting | .standing => .held | other => other
    claim := if s.duties.drive = true then some ⟨0, .stop, .stationSafe⟩ else s.drive.claim }
  armStays : ∀ u, armPresent s u = true → (s.arm u).state = .stowed ∨ (s.arm u).state = .fault →
    t.arm u = { s.arm u with claim := some ⟨0, .stop, .stationSafe⟩ }
  armFaults : ∀ u, armPresent s u = true → (s.arm u).state ≠ .stowed → (s.arm u).state ≠ .fault →
    t.arm u = { s.arm u with
      state := .fault
      cause := .stationSafe
      list := .none
      remaining := 0
      deadline := none
      record := .none
      engaged := false
      brushOnRun := false
      target := 0
      trim := 0
      pwm := 0
      loadDue := none
      expectSince := none
      levels := holdLevels s.safe.hold (armParams s u)
      claim := some ⟨0, .stop, .stationSafe⟩ }
    ∧ (s.loader.station = .operating → ArmAnnounced t u)
  armAbsent : ∀ u, armPresent s u = false → t.arm u = s.arm u
  waterStays : s.duties.water = true → s.water.state = .off ∨ s.water.state = .dry ∨ s.water.state = .fault →
    t.water = { s.water with active := false, claim := some ⟨0, .stop, .stationSafe⟩ }
  waterStops : s.duties.water = true → s.water.state = .priming ∨ s.water.state = .spraying ∨ s.water.state = .idle →
    t.water = { s.water with
      state := .off
      active := false
      priming := none
      q := 0
      trim := 0
      saturated := false
      pump := 0
      valves := Vector.replicate 4 false
      expectSince := none
      claim := some ⟨0, .stop, .stationSafe⟩ }
    ∧ (s.loader.station = .operating → Announced t .water)
  waterAbsent : s.duties.water = false → t.water = s.water
  console : t.console = { s.console with
    claim := if s.duties.console = true then some ⟨0, .stop, .stationSafe⟩ else s.console.claim }
  pace : PaceRises s t
  urgency : s.loader.station = .operating → publishes s.duties .pace = true → t.pub.lastUrgency = .stop

/-- The duties stay as they are, as when a cause is added on a station that is SAFE already (R183). -/
def DutiesStay (s t : State) : Prop :=
  t.drive = s.drive ∧ (∀ u, t.arm u = s.arm u) ∧ t.water = s.water ∧ t.console = s.console

/-! ### The image (R149, R198, R209) -/

/-- A pulse channel's constants in their ranges (R209). -/
def ConstInRange (c : PulseConst) : Prop := 1 ≤ c.minSpacing ∧ 2 ≤ c.windowSteps ∧ c.windowSteps ≤ 200 ∧ 1 ≤ c.k

/-- A step that STEP_LIST lets an arm have (R198). -/
def StepInRange (p : ArmParams) : Step → Prop
  | .valve line _ => (p.lines[line]).isSome = true
  | .waitAngle _ threshold => threshold ≤ 1000
  | .waitTime units => units ≤ 8191
  | .waitDist mm => mm ≤ 8191
  | .brush _ | .waitWater | .waitBrush => True

/-- No line of a list of roles is given twice; a role without a line takes none (R198). -/
def LinesDiffer {n : Nat} (l : List (Option (Fin n))) : Prop := l.Pairwise fun a b => a = none ∨ a ≠ b

/-! ### An arm unit alone (R128–R145)

What the rules make of one arm, from the station it stands in: the brush, a change of state, the steps of a list run from one
instant to the next wait or to the end, FAULT, and the six steps of a period. -/

/-- The claim of an arm by its state, or the SAFE claim (R68, R123, R145). -/
def armHolds (s : State) (u : ArmUnit) (a : Arm) : Claim :=
  let p := armParams s u
  let ceiling := if p.slope = 0 then 6000 else min 6000 ((p.maxRpm - p.baseRpm) * 1000 / p.slope)
  if isSafe s = true then ⟨0, .stop, .stationSafe⟩
  else match a.state with
    | .stowed => ⟨6000, .normal, .none⟩
    | .deploying | .retracting | .resuming => ⟨p.moveCeiling, .normal, .armMoving⟩
    | .yielding | .yielded => ⟨p.yieldCeiling, .prompt, .armYield⟩
    | .sweeping => ⟨ceiling * a.load / 100, .normal, if a.load = 100 then .brushCapacity else .brushLoad⟩
    | .fault => ⟨0, .prompt, .armFault⟩

/-- The brush turns: engaged, in a state that lets it (R142). -/
def armTurns (a : Arm) : Bool :=
  a.engaged && [ArmState.deploying, .sweeping, .resuming, .yielding, .yielded].contains a.state

/-- The instant from which a brush target is expected to move: this one when it rises from 0, none at 0 (R114, R142). -/
def turnsSince (s : State) (old new : Nat) (since : Option Nat) : Option Nat :=
  if new = 0 then none else if old = 0 then some s.micros else since

/-- The brush at the target of the travel speed last read, with a trim (R142, R143). -/
def armAtTarget (s : State) (u : ArmUnit) (trim : Int) (a : Arm) : Arm :=
  let p := armParams s u
  let target := min p.maxRpm (p.baseRpm + a.inputs.vt * p.slope / 1000)
  { a with
    target := target
    trim := trim
    pwm := (max 0 (min 1000 (((target * p.kb / 1000 : Nat) : Int) + trim))).toNat
    expectSince := turnsSince s a.target target a.expectSince }

/-- The brush at rest (R142, R143). -/
def armAtRest (a : Arm) : Arm := { a with target := 0, trim := 0, pwm := 0, expectSince := none }

/-- The arm in a new state: the load window runs only in SWEEPING, STOWED disengages the brush, the brush starts or stops with the
state, and the claim is formed anew (R129, R132, R142, R143, R144, R145). -/
def armEnters (s : State) (u : ArmUnit) (st : ArmState) (a : Arm) : Arm :=
  let b := { a with
    state := st
    loadDue := if st = .sweeping then some (s.micros / 1000 + 500) else none
    engaged := if st = .stowed then false else a.engaged }
  let c := if armTurns b = false then armAtRest b else if armTurns a = true then b else armAtTarget s u a.trim b
  { c with claim := some (armHolds s u c) }

/-- The arm in FAULT (R140). -/
def armFails (s : State) (u : ArmUnit) (cause : ArmFault) (a : Arm) : Arm :=
  let b := { armAtRest a with
    state := .fault
    cause := cause
    list := .none
    remaining := 0
    deadline := none
    record := .none
    engaged := false
    brushOnRun := false
    loadDue := none
    levels := Vector.ofFn fun i => match (armParams s u).lines[i] with
      | some line => s.safe.hold.valves.getLsbD line
      | none => false }
  { b with claim := some (armHolds s u b) }

/-- What a step does at the instant it begins (R135, R136, R138). -/
def stepBegins (s : State) (u : ArmUnit) (st : Step) (a : Arm) : Arm :=
  let limit := some (s.micros / 1000 + (armParams s u).stepTimeout * 100)
  match st with
  | .valve line on => { a with levels := a.levels.set line on }
  | .brush true =>
    let b := { a with engaged := true, brushOnRun := true }
    if armTurns b = true then armAtTarget s u a.trim b else armAtRest b
  | .brush false => armAtRest { a with engaged := false }
  | .waitTime _ => { a with record := .time (s.micros / 1000) }
  | .waitDist _ => { a with
      deadline := limit
      record := match travelRecord s with
        | some r => .distance (longAt r.payload 6)
        | none => .none }
  | .waitAngle _ _ | .waitWater | .waitBrush => { a with deadline := limit }

/-- WATER_IN gives a WAIT_WATER what it waits for: no rule stores the label, or a FRESH slot of it holds PRIMING or SPRAYING (R19,
R137). -/
def waterHeard (p : Picture) : Bool :=
  let stores (i : Fin 24) := decide ((p.table[i]).inUse = true ∧ ruleDestination p.table[i] ≠ .queue
    ∧ ruleLabel p.table[i] = .waterIn)
  let flows (r : SlotRecord) := decide (r.age = .fresh ∧ headerTopic r.header = 7
    ∧ (byteAt r.payload 0 = 1 ∨ byteAt r.payload 0 = 2))
  !(List.finRange 24).any stores
    || (List.finRange 32).any fun n => slotLabel p n == some .waterIn && (p.slots[n]).record.any flows

/-- Whether a step's condition is met by an arm at an instant (R134–R137). -/
def stepMet (s : State) (u : ArmUnit) (a : Arm) : Step → Bool
  | .valve _ _ | .brush _ => true
  | .waitAngle below threshold =>
    if below = true then decide (angleValue s.inputs u < threshold) else decide (threshold < angleValue s.inputs u)
  | .waitTime units => decide (units = 0)
  | .waitDist mm => decide (mm = 0) && (travelRecord s).isSome
  | .waitWater => waterHeard s.picture
  | .waitBrush =>
    (channelOf s.inputs (brushFn u)).isNone || decide (a.target * 80 ≤ fnValue s (brushFn u) * 100)

/-- The step in progress complete: steps remaining down by 1, its deadline and record gone (R134, R138). -/
def stepCounted (a : Arm) : Arm := { a with remaining := a.remaining - 1, deadline := none, record := .none }

/-- Steps begun one after another from one instant, until one whose condition is not met stays in progress or the list is done and
the running list NONE: the arm, and whether the list is done (R133, R134). -/
def stepsRun (s : State) (u : ArmUnit) : List Step → Arm → Arm × Bool
  | [], a => ({ a with list := .none, remaining := 0, deadline := none, record := .none }, true)
  | st :: rest, a =>
    let b := stepBegins s u st a
    if stepMet s u b st = true then stepsRun s u rest (stepCounted b) else (b, false)

/-- A transition that starts a list: any other is cut, its deadline and record discarded, levels and engagement as they stood, and
the list run from its first step (R133, R134). -/
def armStarts (s : State) (u : ArmUnit) (st : ArmState) (l : ListName) (a : Arm) : Arm × Bool :=
  let steps := listSteps (armParams s u) l
  stepsRun s u steps (armEnters s u st
    { a with list := l, remaining := steps.length, deadline := none, record := .none, brushOnRun := false })

/-- Into RETRACTING with its list, and on to STOWED when that is done at once (R132). -/
def armRetracts (s : State) (u : ArmUnit) (a : Arm) : Arm :=
  let r := armStarts s u .retracting .retract a
  if r.2 = true then armEnters s u .stowed r.1 else r.1

/-- Where a done list takes the arm: SWEEPING, STOWED, and from YIELD to RETRACTING when the retract condition holds as last
read, to YIELDED otherwise (R129, R131, R132). -/
def armEnds (s : State) (u : ArmUnit) (l : ListName) (a : Arm) : Arm :=
  match l with
  | .none => a
  | .deploy | .resume => armEnters s u .sweeping a
  | .retract => armEnters s u .stowed a
  | .yield =>
    if a.inputs.heard = false ∨ a.inputs.mode ≠ .sweep ∨ a.inputs.request = .retract then armRetracts s u a
    else armEnters s u .yielded a

/-- The transition into the state of a list, with whatever the list runs through at once (R128–R134). -/
def armTakes (s : State) (u : ArmUnit) (l : ListName) (a : Arm) : Arm :=
  let st := match l with
    | .deploy => .deploying
    | .retract => .retracting
    | .yield => .yielding
    | .resume => .resuming
    | .none => a.state
  let r := armStarts s u st l a
  if r.2 = true then armEnds s u l r.1 else r.1

/-- The wait step in progress completes, and the list goes on at the same instant (R134). -/
def stepDone (s : State) (u : ArmUnit) (a : Arm) : Arm :=
  let b := stepCounted a
  let r := stepsRun s u (stepsLeft (armParams s u) b) b
  if r.2 = true then armEnds s u a.list r.1 else r.1

/-- Step 3 of a period: a WAIT_DIST, WAIT_WATER or WAIT_BRUSH in progress checked for completion; a WAIT_DIST without a start
distance records it (R136, R137). -/
def armChecked (s : State) (u : ArmUnit) (a : Arm) : Arm :=
  match (stepsLeft (armParams s u) a).head? with
  | some (.waitDist mm) =>
    match a.record, travelRecord s with
    | .distance start, some r =>
      if mm ≤ (longAt r.payload 6 + 2 ^ 24 - start % 2 ^ 24) % 2 ^ 24 then stepDone s u a else a
    | .distance _, none => a
    | _, some r =>
      let b := { a with record := .distance (longAt r.payload 6) }
      if mm = 0 then stepDone s u b else b
    | _, none => { a with record := .none }
  | some .waitWater => if stepMet s u a .waitWater = true then stepDone s u a else a
  | some .waitBrush => if stepMet s u a .waitBrush = true then stepDone s u a else a
  | some (.valve _ _) | some (.brush _) | some (.waitAngle _ _) | some (.waitTime _) | none => a

/-- Step 4 of a period: an arm neither STOWED nor in FAULT whose angle input is OUT_OF_RANGE (R139). -/
def armAngled (s : State) (u : ArmUnit) (a : Arm) : Arm :=
  if angleInRange s.inputs u = false ∧ a.state ≠ .stowed ∧ a.state ≠ .fault then armFails s u .angleRange a else a

/-- Step 5 of a period taken at an expiry: at most one transition, as the table of spec/07, 7.3 has it (R127–R132). -/
def armEvaluated (s : State) (u : ArmUnit) (expiry : Nat) (a : Arm) : Arm :=
  let i := a.inputs
  let deploys := i.heard = true ∧ i.mode = .sweep ∧ i.request = .deploy ∧ isSafe s = false ∧ angleInRange s.inputs u = true
  let retracts := i.heard = false ∨ i.mode ≠ .sweep ∨ i.request = .retract
  let yields := switchOn s.inputs (deflectFn u) = true ∨ ∃ start ∈ a.reverse.toList, start + 300 ≤ expiry
  let clear := switchOn s.inputs (deflectFn u) = false ∧ (∃ off ∈ a.deflectOff.toList, off + 1000 ≤ s.micros / 1000)
    ∧ i.direction = some .forward
  match a.state with
  | .stowed => if deploys then armTakes s u .deploy { a with load := 100 } else a
  | .deploying | .sweeping | .resuming =>
    if retracts then armTakes s u .retract a else if yields then armTakes s u .yield a else a
  | .yielded => if retracts then armTakes s u .retract a else if clear then armTakes s u .resume a else a
  | .retracting => if deploys then armTakes s u .deploy a else a
  | .yielding | .fault => a

/-- Step 6 of a period: target, trim and PWM while the brush turns, with the trim moved by the measured speed of a channel that is
assigned and not LOST and 0 otherwise; at rest while it does not turn (R142, R143). -/
def armBrushed (s : State) (u : ArmUnit) (a : Arm) : Arm :=
  let p := armParams s u
  let target := min p.maxRpm (p.baseRpm + a.inputs.vt * p.slope / 1000)
  let error : Int := (target : Int) - fnValue s (brushFn u)
  let trim := match fnState s (brushFn u) with
    | some .tracking | some .oneMissing | some .stopped => max (-150) (min 150 (a.trim + Int.tdiv (error * p.kt) 256))
    | some .lost | none => 0
  if armTurns a = true then armAtTarget s u trim a else armAtRest a

/-! ### Station reset -/

/-- The link at its station reset values (R45). -/
structure LinkAtReset (l : Link) : Prop where
  states : l.state = .hunt ∧ l.receiver = .hunt ∧ l.transmitter = .quiet
  idle : l.inHand = none ∧ l.tally = 0 ∧ l.muteDue = none ∧ l.abortDue = none ∧ l.holding = []
  flags : l.crcFlag = false ∧ l.framingFlag = false ∧ l.shortFlag = false ∧ l.overrunFlag = false ∧ l.muteFlag = false

/-- The Publication Scheduler at its station reset values (R58, R64), with nothing owed in the model's own `noticeDue`
(notes/assumptions/26.md). -/
structure PubAtReset (p : Publication) : Prop where
  empty : p.list = [] ∧ p.deferred = []
  timers : ∀ i : Fin 6, p.timers[i] = none
  numbers : ∀ i : Fin 11, p.nextSeq[i] = 0
  counts : p.lastUrgency = .normal ∧ p.dropped = 0 ∧ p.lastDropped = 0
  flags : p.late = false ∧ p.droppedFlag = false ∧ p.noticeDue = false

/-- An arm unit at its station reset values (R124), having read no inputs yet (notes/assumptions/6.md). -/
def ArmAtReset (a : Arm) : Prop :=
  a.state = .stowed ∧ a.list = .none ∧ a.remaining = 0 ∧ a.deadline = none ∧ a.record = .none ∧ a.engaged = false
    ∧ a.brushOnRun = false ∧ a.target = 0 ∧ a.trim = 0 ∧ a.pwm = 0 ∧ a.load = 100 ∧ a.loadDue = none ∧ a.reverse = none
    ∧ a.deflectOff = none ∧ (∀ i : Fin 4, a.levels[i] = false) ∧ a.cause = .none ∧ a.claim = none ∧ a.due = none
    ∧ a.expectSince = none ∧ a.inputs = ⟨false, .park, .hold, 0, none⟩

/-- An arm block with nothing in it. -/
def ArmBlockEmpty (p : ArmParams) : Prop :=
  p = ⟨.left, none, 0, 0, 0, 0, 0, 0, 0, 0, 0, 0, 0, 0, #v[none, none, none, none], [], [], [], [], ⟨0, 0, 0⟩⟩

/-- Picture, inputs, duties and hold set at their station reset values (R1, R9, R20, R21, R71, R106, R121, R124, R169, R179,
R180), with no duty and no control period timer (R200, R201). The image's values, for which the spec gives none, are 0 or empty
(notes/assumptions/3.md). -/
structure BlocksAtReset (t : State) : Prop where
  duties : t.duties = ⟨false, false, false, false, false⟩
  timers : t.drive.due = none ∧ t.water.due = none ∧ t.console.due = none
  expecting : t.drive.expectSince = none ∧ t.water.expectSince = none
  coils : t.drive.fwdDuty = 0 ∧ t.drive.revDuty = 0 ∧ t.drive.brakeOn = false
  periods : ∀ i : Fin 6, t.params.periods[i] = 0
  driveBlock : t.params.drive =
    ⟨0, 0, 0, 0, 0, 0, 0, 0, 0, 0, 0, 0, 0, 0, 0, 0, none, none, none, ⟨0, 0, 0⟩, ⟨0, 0, 0⟩⟩
  waterBlock : t.params.water = ⟨0, 0, 0, 0, 0, 0, 0, 0, false, none,
    #v[⟨none, .always⟩, ⟨none, .always⟩, ⟨none, .always⟩, ⟨none, .always⟩], ⟨0, 0, 0⟩⟩
  consoleBlock : t.params.console = ⟨0, 0, false, none⟩
  armBlocks : ArmBlockEmpty t.params.armA ∧ ArmBlockEmpty t.params.armB
  table : ∀ i : Fin 24, t.picture.table[i].inUse = false
  slots : ∀ n : Fin 32, t.picture.slots[n].record = none ∧ t.picture.slots[n].gap = false
  picture : t.picture.store = none ∧ t.picture.events = [] ∧ t.picture.shortPayload = false ∧ t.picture.eventOverrun = false
  pulse : ∀ i : Fin 6, t.inputs.pulse[i] = ⟨.unused, .stopped, 0, none, none, 0⟩
  distance : t.inputs.distance = 0 ∧ t.inputs.remainder = 0 ∧ t.inputs.sensorLost = false
  analog : ∀ i : Fin 4, (t.inputs.analog[i]).fn = .unused ∧ (t.inputs.analog[i]).reading = 0
    ∧ (t.inputs.analog[i]).inRange = true ∧ (t.inputs.analog[i]).run = 0 ∧ (t.inputs.analog[i]).lastGood = none
  switches : ∀ i : Fin 8, (t.inputs.switches[i]).fn = .unused ∧ (t.inputs.switches[i]).level = false
    ∧ (t.inputs.switches[i]).run = 0
  drive : t.drive.state = .parked ∧ t.drive.direction = .forward ∧ t.drive.mode = .park ∧ t.drive.v = 0 ∧ t.drive.vm = 0
    ∧ t.drive.n = 0 ∧ t.drive.a1 = 0 ∧ t.drive.d = 0 ∧ t.drive.standstill = none ∧ t.drive.claim = none
    ∧ t.drive.pace = ⟨0, .normal, t.loader.address, .none⟩
  arms : ArmAtReset t.armA ∧ ArmAtReset t.armB
  water : t.water.state = .off ∧ t.water.q = 0 ∧ t.water.saturated = false ∧ t.water.trim = 0 ∧ t.water.pump = 0
    ∧ t.water.dry = false ∧ t.water.tankBelow = false ∧ (∀ i : Fin 4, t.water.valves[i] = false) ∧ t.water.claim = none
    ∧ t.water.rate = 0 ∧ t.water.width = 0 ∧ t.water.speed = 0 ∧ t.water.active = false ∧ t.water.priming = none
    ∧ t.water.tank = 0
  console : t.console.mode = .park ∧ t.console.modeInvalid = false ∧ t.console.direction = .forward ∧ t.console.pedal = 0
    ∧ t.console.rate = 0 ∧ t.console.requests = ⟨.hold, .hold, .hold, .hold⟩ ∧ t.console.resetHold = none
    ∧ t.console.lampDeadline = none ∧ t.console.claim = none
  hold : t.safe.hold.valves = 0 ∧ ∀ i : Fin 8, t.safe.hold.pwm[i] = 0

end Sys2Proof.Machine
end

