-- ==== Sys2Proof/Certificates/Slice0/Obligations.lean ====
section
/-! DEFINITION. The statements about this model. Each names in its docstring the rules of spec/ that it states, or the entry of
notes/assumptions/ that it rests on. A statement about one command gives the state that `exec` answers, so that everything it
does not name is unchanged. -/

open Sys2Proof Sys2Proof.Machine

/-! ## The queue and the step -/

/-- A step runs the command at the front of the queue on the state with the queue's rest. The queue is the model's own (notes/
assumptions/1.md). -/
def Obligations.StepRunsTheFrontCommand : Prop :=
  ∀ (c : Instr) (rest : List Instr) (s : State), s.pending = c :: rest → step s = exec c { s with pending := rest }

/-- With no command waiting a step is one microsecond of the time base, which stands still while the station is held in reset.
The model's choice (notes/assumptions/1.md). A NOTICE that is still owed at that instant is built if a place is free, and
otherwise waits for the next place that a success frees (notes/assumptions/26.md). -/
def Obligations.EmptyQueueLetsOneMicrosecondPass : Prop :=
  ∀ s : State, s.pending = [] →
    (s.held = true → step s = .next s)
    ∧ (s.held = false → s.pub.noticeDue = false → step s = .next { s with micros := s.micros + 1 })
    ∧ (s.held = false → s.pub.noticeDue = true →
      (s.loader.station = .operating → 0 < s.pub.dropped → placesTaken s < 4 → HeaderOrder s.pub.list →
        ∃ l, PlacedBehind (builtEvent s .notice (spelled [4, s.pub.dropped, s.pub.lastDropped])) s.pub.list l
          ∧ step s = .next
            { s with
              micros := s.micros + 1
              pub := { s.pub with
                list := l
                nextSeq := s.pub.nextSeq.set (topicIndex .notice) (s.pub.nextSeq[topicIndex .notice] + 1)
                dropped := 0
                noticeDue := false } })
      ∧ (s.loader.station ≠ .operating ∨ s.pub.dropped = 0 ∨ 4 ≤ placesTaken s →
        step s = .next { s with micros := s.micros + 1, pub := { s.pub with noticeDue := false } }))

/-! ## Reset and start-up (spec/11) -/

/-- The state at power-up meets every property of Safety.lean. -/
def Obligations.PowerUpStateMeetsEveryProperty : Prop :=
  CarriedDutiesOnly State.reset ∧ QueuesBounded State.reset ∧ FramesWhole State.reset ∧ TransmitListOrdered State.reset
    ∧ LinkConsistent State.reset ∧ ClaimsHeld State.reset ∧ SafeStill State.reset ∧ JoiningStill State.reset
    ∧ DriveBounded State.reset.params.drive State.reset.drive ∧ WaterBounded State.reset.params.water State.reset.water
    ∧ ∀ u, ArmBounded (armParams State.reset u) (State.reset.arm u)

/-- While reset is asserted every block holds its station reset value (R1, R9, R20, R21, R45, R64, R71, R106, R121, R124,
R169, R179, R180, R182, R195). When it ends the straps are the address. With 0–14 the first image read begins and the CONFIG_BAD
timer stands still; with 15 the station is in CONFIG_FAULT with check code ADDRESS, SAFE through CONFIG_BAD alone, its receiver at
250 kbit/s and its CONFIG_BAD timer running (R60, R195, R196, R200). Nothing of the earlier start is kept, the model's own field of
a notice left owed among it (notes/assumptions/26.md). That the image's values then read 0 or empty, and that the waiting commands,
which stand outside the part, stay, are the model's choices (notes/assumptions/3.md), and so are the readings an arm holds before
its first period (notes/assumptions/6.md). -/
def Obligations.ResetGivesResetValuesAndSamplesTheStraps : Prop :=
  ∀ (straps : BitVec 4) (s : State),
    (∃ t, exec .resetAsserted s = .next t ∧ t.held = true ∧ t.micros = 0 ∧ t.pending = s.pending
      ∧ t.loader.station = .configuring ∧ t.loader.validity = .unread ∧ t.loader.failedCheck = none ∧ t.loader.attempts = 0
      ∧ t.loader.joinDue = none ∧ t.loader.imageCrc = none ∧ t.pub.configBadDue = none
      ∧ LinkAtReset t.link ∧ PubAtReset t.pub ∧ BlocksAtReset t ∧ isSafe t = false)
    ∧ ∃ t, exec (.stationReset straps) s = .next t
    ∧ t.held = false ∧ t.micros = 0 ∧ t.pending = s.pending ∧ LinkAtReset t.link ∧ PubAtReset t.pub ∧ BlocksAtReset t
    ∧ (straps ≠ 15 → t.loader = ⟨.configuring, straps, .unread, none, 1, none, none⟩ ∧ isSafe t = false
        ∧ t.pub.configBadDue = none)
    ∧ (straps = 15 → t.loader = ⟨.configFault, 15, .failed, some .address, 0, none, none⟩
        ∧ t.safe.causes = ⟨false, false, false, false, true⟩ ∧ t.link.bitRate = some .k250
        ∧ t.pub.configBadDue = some 1000)

/-- A read the memory does not answer starts again below three attempts, and at three goes to CONFIG_FAULT with NO_MEMORY
(R196, R200). A complete image whose CRC disagrees goes there with IMAGE_CRC, and one that fails a field check with the code
of the first check that fails (R197, R198, R200). -/
def Obligations.FailedReadsAndBadImagesEndInConfigFault : Prop :=
  ∀ s : State, s.loader.station = .configuring → s.held = false →
    (s.loader.attempts < 3 →
      exec .imageReadFailed s = .next { s with loader := { s.loader with attempts := s.loader.attempts + 1 } })
    ∧ (CarriedDutiesOnly s → s.safe.causes.configBad = false →
      (3 ≤ s.loader.attempts → exec .imageReadFailed s = .next (configFaultFrom .noMemory s))
      ∧ ∀ (image : Vector Byte 1024) (first : Vector Permille 4),
        (crc16 (image.toList.take 1022) ≠ image[1022] ++ image[1023] →
          exec (.imageReadComplete image first) s = .next (configFaultFrom .imageCrc s))
        ∧ ∀ (before after : List (CheckCode × Bool)) (code : CheckCode),
          crc16 (image.toList.take 1022) = image[1022] ++ image[1023] →
          fieldChecks image = before ++ (code, false) :: after → (∀ c ∈ before, c.2 = true) →
          exec (.imageReadComplete image first) s = .next (configFaultFrom code s))

/-- A complete image that passes every check takes the station into JOINING: the loader, the link, the table, the hold set,
the duty set and the parameters, the inputs with their first conversions, and the start state and claim of each duty (R45,
R68, R106, R110, R118, R121, R124, R145, R154, R155, R167, R179, R201). Nothing is enqueued; the notices of an arm outside its
stow band, a low tank and a pedal out of range are deferred, in the order in which the duties start (R59, R124, R155, R172;
notes/assumptions/11.md). -/
def Obligations.GoodImageEntersJoining : Prop :=
  ∀ (image : Vector Byte 1024) (first : Vector Permille 4) (s : State),
    s.loader.station = .configuring → s.held = false → failedCheckOf image = none →
    ∃ t, exec (.imageReadComplete image first) s = .next t
      ∧ t.held = s.held ∧ t.micros = s.micros ∧ t.pending = s.pending ∧ t.pub.list = s.pub.list
      ∧ t.loader = { s.loader with
          station := .joining
          validity := .valid
          imageCrc := some (image[1022] ++ image[1023])
          joinDue := some (s.micros / 1000 + 300) }
      ∧ t.link = { s.link with
          bitRate := bitRateOf image[2].toNat
          state := .hunt
          receiver := .hunt
          transmitter := .quiet
          inHand := none }
      ∧ t.picture = { s.picture with table := imgTable image }
      ∧ t.safe = ⟨s.safe.causes, imgHold image⟩ ∧ t.duties = imgDuties image ∧ t.params = imgParams image
      ∧ t.inputs.distance = 0 ∧ t.inputs.remainder = 0
      ∧ (∀ i : Fin 6, t.inputs.pulse[i] = ⟨imgPulseFn image i, .stopped, 0, none, none, 0⟩)
      ∧ (∀ i : Fin 8, (t.inputs.switches[i]).fn = imgSwitchFn image i ∧ (t.inputs.switches[i]).level = false
          ∧ (t.inputs.switches[i]).run = 0)
      ∧ (∀ i : Fin 4, (t.inputs.analog[i]).fn = imgAnalogFn image i
          ∧ (imgAnalogFn image i ≠ .unused → (t.inputs.analog[i]).reading = first[i].val
            ∧ (t.inputs.analog[i]).inRange = decide (20 ≤ first[i].val ∧ first[i].val ≤ 980)))
      ∧ (t.duties.drive = true → t.drive.state = .parked ∧ t.drive.direction = .forward ∧ t.drive.v = 0
          ∧ t.drive.due = some (s.micros / 1000 + 10)
          ∧ t.drive.claim = some (if isSafe s = true then ⟨0, .stop, .stationSafe⟩ else ⟨6000, .normal, .none⟩))
      ∧ (∀ u, armPresent t u = true →
          (t.arm u).claim = some (if isSafe s = true then ⟨0, .stop, .stationSafe⟩
            else if (t.arm u).state = .fault then ⟨0, .prompt, .armFault⟩ else ⟨6000, .normal, .none⟩)
          ∧ (t.arm u).list = .none ∧ (t.arm u).load = 100 ∧ (t.arm u).deflectOff = some (s.micros / 1000)
          ∧ (t.arm u).due = some (s.micros / 1000 + 20) ∧ (t.arm u).levels = holdLevels t.safe.hold (armParams t u)
          ∧ (angleInRange t.inputs u = false → (t.arm u).state = .fault ∧ (t.arm u).cause = .angleRange)
          ∧ (angleInRange t.inputs u = true → (armParams t u).stowLow ≤ angleValue t.inputs u →
              angleValue t.inputs u ≤ (armParams t u).stowHigh → (t.arm u).state = .stowed ∧ (t.arm u).cause = .none)
          ∧ (angleInRange t.inputs u = true →
              angleValue t.inputs u < (armParams t u).stowLow ∨ (armParams t u).stowHigh < angleValue t.inputs u →
              (t.arm u).state = .fault ∧ (t.arm u).cause = .notStowed))
      ∧ (t.duties.water = true → t.water.state = .off ∧ t.water.due = some (s.micros / 1000 + 20)
          ∧ t.water.dry = decide (tankValue t.inputs < t.params.water.emptyMark)
          ∧ t.water.tankBelow = decide (tankValue t.inputs < t.params.water.lowMark)
          ∧ t.water.claim = some (if isSafe s = true then ⟨0, .stop, .stationSafe⟩
            else if t.water.dry = true ∧ t.params.water.dryForbidden = true then ⟨0, .prompt, .tankEmpty⟩
            else ⟨6000, .normal, .none⟩))
      ∧ (t.duties.console = true → t.console.mode = .park ∧ t.console.pedal = 0 ∧ t.console.rate = 0
          ∧ t.console.requests = ⟨.hold, .hold, .hold, .hold⟩ ∧ t.console.due = some (s.micros / 1000 + 20)
          ∧ t.console.claim = some (if isSafe s = true then ⟨0, .stop, .stationSafe⟩ else ⟨6000, .normal, .none⟩))
      ∧ (s.pub.deferred = [] →
        let stow (u : ArmUnit) (number : Nat) : List (List Byte) :=
          if armPresent t u = true ∧ (t.arm u).cause = .notStowed
          then [spelled [6, number, positionCode (armParams t u).position]] else []
        let tank : List (List Byte) :=
          if t.duties.water = true ∧ t.water.tankBelow = true then [spelled [0, tankValue t.inputs / 4, 0]] else []
        let pedal : List (List Byte) :=
          match t.duties.console, (List.finRange 4).find? fun i => imgAnalogFn image i == .pedal with
          | true, some i => if 20 ≤ first[i].val ∧ first[i].val ≤ 980 then [] else [spelled [1, first[i].val / 4, 0]]
          | true, none | false, _ => []
        t.pub.deferred = (stow .a 0 ++ stow .b 1 ++ tank ++ pedal).zipIdx.map fun (x : List Byte × Nat) =>
          { builtEvent s .notice x.1 with seq := s.pub.nextSeq[topicIndex .notice] + BitVec.ofNat 8 x.2 })

/-- What an accepted image holds lies in the ranges of the chapters and passes the field checks (R198): version, bit rate and
duty set; the rules in use (R2); the periods published (R47); inputs, each function given once and read on this station, and
lines, none given two roles, with those that a duty present needs (R107, R117, R120, R198); the drive block (R105), the water
block with its ties (R149), the console block (spec/09, 9.1), the arm blocks with line 0 and their lists (R122, R209), and the
channel constants (R209), each for a duty present; and the hold set (R180). That a QUEUE rule's slot number and age limit are
judged too is an inference (notes/assumptions/13.md), and so is how a line, tie or choice code outside its list is judged
(notes/assumptions/12.md). -/
def Obligations.AcceptedImageIsInRange : Prop :=
  ∀ image : Vector Byte 1024, failedCheckOf image = none →
    let p := imgParams image
    let d := imgDuties image
    let pulse := imgPulseFn image
    let analog := imgAnalogFn image
    let switch := imgSwitchFn image
    let arms (u : ArmUnit) : Prop := match u with | .a => d.armA = true | .b => d.armB = true
    (imgByte image 0 = 1 ∧ (imgByte image 2 = 1 ∨ imgByte image 2 = 2 ∨ imgByte image 2 = 3) ∧ imgByte image 1 < 32)
    ∧ (∀ i : Fin 24, ((imgTable image)[i]).inUse = true →
        (labelOfCode ((imgTable image)[i]).labelCode.toNat).isSome = true
        ∧ (destinationOfCode ((imgTable image)[i]).destCode.toNat).isSome = true
        ∧ ((imgTable image)[i]).slotNumber.toNat < 32 ∧ 10 ≤ ruleAgeLimit (imgTable image)[i]
        ∧ ruleAgeLimit (imgTable image)[i] ≤ 2550)
    ∧ (∀ t, publishes d t = true → 1 ≤ p.periods[cyclicIndex t] ∧ p.periods[cyclicIndex t] ≤ 100)
    ∧ ((∀ i : Fin 6, imgNibble image 212 i.val ≤ 5) ∧ ∀ i : Fin 4, imgNibble image 215 i.val ≤ 5)
    ∧ ((∀ i j, i ≠ j → pulse i ≠ .unused → pulse i ≠ pulse j) ∧ (∀ i j, i ≠ j → analog i ≠ .unused → analog i ≠ analog j)
        ∧ ∀ i j, i ≠ j → switch i ≠ .unused → switch i ≠ switch j)
    ∧ (∀ i, (pulse i = .wheel ∨ pulse i = .engine → d.drive = true) ∧ (∀ u, pulse i = brushFn u → arms u)
        ∧ (pulse i = .flow → d.water = true))
    ∧ (∀ i, (analog i = .pedal ∨ analog i = .rateKnob → d.console = true) ∧ (∀ u, analog i = angleFn u → arms u)
        ∧ (analog i = .tank → d.water = true))
    ∧ (∀ i, (∀ u, switch i = deflectFn u → arms u)
        ∧ (switch i ≠ .unused → switch i ≠ .deflectA → switch i ≠ .deflectB → d.console = true))
    ∧ LinesDiffer ((if d.drive = true then [p.drive.brakeLine] else [])
        ++ (if d.water = true then p.water.sprays.toList.map SprayValve.line else [])
        ++ (if d.armA = true then p.armA.lines.toList else []) ++ (if d.armB = true then p.armB.lines.toList else [])
        ++ (if d.console = true then [p.console.lampLine] else []))
    ∧ LinesDiffer ((if d.drive = true then [p.drive.fwdLine, p.drive.revLine] else [])
        ++ (if d.armA = true then [p.armA.brushLine] else []) ++ (if d.armB = true then [p.armB.brushLine] else [])
        ++ (if d.water = true then [p.water.pumpLine] else []))
    ∧ (d.drive = true → p.drive.transportMax ≤ 6000 ∧ p.drive.sweepMax ≤ 6000 ∧ p.drive.reverseMax ≤ 6000
        ∧ p.drive.creep ≤ 6000 ∧ p.drive.agedCreep ≤ 6000 ∧ 100 ≤ p.drive.engineMin ∧ p.drive.engineMin ≤ 3000
        ∧ (∀ a ∈ [p.drive.aUp, p.drive.aDown, p.drive.aPrompt, p.drive.aEmergency], 100 ≤ a ∧ a ≤ 5000)
        ∧ p.drive.kp ≤ 255 ∧ p.drive.ki ≤ 255 ∧ p.drive.iLimit ≤ 500 ∧ p.drive.iMin ≤ p.drive.iMax ∧ p.drive.iMax ≤ 1000
        ∧ p.drive.fwdLine.isSome = true ∧ p.drive.revLine.isSome = true ∧ p.drive.brakeLine.isSome = true
        ∧ (∃ i, pulse i = .wheel) ∧ (∃ i, pulse i = .engine)
        ∧ ConstInRange p.drive.wheelConst ∧ ConstInRange p.drive.engineConst)
    ∧ (∀ u : ArmUnit, arms u →
        let a := match u with | .a => p.armA | .b => p.armB
        let block := match u with | .a => 416 | .b => 448
        a.sweepWidth ≤ 3000 ∧ a.yieldWidth ≤ 3000 ∧ a.baseRpm ≤ a.maxRpm ∧ a.maxRpm ≤ 3000 ∧ a.slope ≤ 1000 ∧ a.kb ≤ 10000
        ∧ a.kt ≤ 255 ∧ 1 ≤ a.stepTimeout ∧ a.stepTimeout ≤ 255 ∧ a.stowLow ≤ a.stowHigh ∧ a.stowHigh ≤ 1000
        ∧ a.moveCeiling ≤ 6000 ∧ a.yieldCeiling ≤ 6000
        ∧ imgByte image block ≤ 3 ∧ a.brushLine.isSome = true ∧ (a.lines[0]).isSome = true
        ∧ (∀ i < 4, imgByte image (block + 24 + i) < 16 ∨ imgByte image (block + 24 + i) = 255)
        ∧ (∃ i, analog i = angleFn u) ∧ ((∃ i, pulse i = brushFn u) → ConstInRange a.brushConst)
        ∧ (∀ l, (listSteps a l).length ≤ 16 ∧ ∀ st ∈ listSteps a l, StepInRange a st)
        ∧ a.deploy.length = imgByte image (block + 28) ∧ a.retract.length = imgByte image (block + 29)
        ∧ a.yield.length = imgByte image (block + 30) ∧ a.resume.length = imgByte image (block + 31))
    ∧ (d.armA = true → d.armB = true → p.armA.position ≠ p.armB.position)
    ∧ (d.water = true → p.water.rateMax ≤ 400 ∧ 1 ≤ p.water.qMax ∧ p.water.qMax ≤ 2000 ∧ p.water.sprayMin ≤ 6000
        ∧ p.water.kq ≤ 255 ∧ p.water.kw ≤ 10000 ∧ p.water.primeTime ≤ 255 ∧ p.water.emptyMark ≤ p.water.lowMark
        ∧ p.water.lowMark ≤ 1000 ∧ imgByte image 334 ≤ 1 ∧ p.water.pumpLine.isSome = true ∧ (∃ i, analog i = .tank)
        ∧ ((∃ i, pulse i = .flow) → ConstInRange p.water.flowConst)
        ∧ ∀ i : Fin 4, (imgByte image (336 + 2 * i.val) < 16 ∨ imgByte image (336 + 2 * i.val) = 255)
          ∧ ((p.water.sprays[i]).line ≠ none → (p.water.sprays[i]).tie = .always
            ∨ ∃ station u, (p.water.sprays[i]).tie = .arm station u ∧ station.toNat = imgByte image (337 + 2 * i.val) / 16
              ∧ station ≠ 15 ∧ imgByte image (337 + 2 * i.val) % 16 = match u with | .a => 0 | .b => 1))
    ∧ (d.console = true → p.console.deadband ≤ 500 ∧ p.console.rateMax ≤ 400 ∧ imgByte image 388 ≤ 1
        ∧ (imgByte image 389 < 16 ∨ imgByte image 389 = 255))
    ∧ ∀ i : Fin 8, (imgHold image).pwm[i] ≤ 1000

/-- The number of cyclic topics a station publishes (R47). -/
def Sys2Proof.Machine.publishedCount (d : DutySet) : Nat := (cyclicTopics.filter (publishes d)).length

/-- At the join timer's expiry the station is OPERATING: the deferred events stand in the list in the order asked, with a
first frame of every cyclic topic published, byte by byte, whose timers start, and the last PACE urgency is that of the PACE
built (R47, R48, R55, R56, R59, R64, R203, R208). That the list
is still empty then is R59's own word and an invariant (TransmitListStaysOrdered). -/
def Obligations.JoinTimerOpensPublication : Prop :=
  ∀ (s : State) (due : Nat), s.loader.station = .joining → s.loader.joinDue = some due → due ≤ s.micros / 1000 →
    s.pub.list = [] → (∀ e ∈ s.pub.deferred, e.kind = .event) →
    ∃ p, exec .joinTimerExpiry s = .next
        { s with loader := { s.loader with station := .operating, joinDue := none }, pub := p }
      ∧ p.deferred = [] ∧ HeaderOrder p.list
      ∧ p.list.length = s.pub.deferred.length + publishedCount s.duties
      ∧ (∀ h, p.list.filter (fun e => e.kind == .event && e.header == h)
          = (s.pub.deferred.filter (fun e => e.header == h)).map fun e => { e with enqueued := some (s.micros / 1000) })
      ∧ (∀ t, publishes s.duties t = true →
          (∃ payload, RecordBytes s payload t ∧ (⟨.cyclic, topicHeader (cyclicTopic t) s.loader.address,
              s.pub.nextSeq[topicIndex (cyclicTopic t)], payload, none⟩ : TxEntry) ∈ p.list)
          ∧ p.timers[cyclicIndex t] = some (s.micros / 1000 + s.params.periods[cyclicIndex t] * 10)
          ∧ p.nextSeq[topicIndex (cyclicTopic t)] = s.pub.nextSeq[topicIndex (cyclicTopic t)] + 1)
      ∧ (∀ t, publishes s.duties t = false → p.timers[cyclicIndex t] = s.pub.timers[cyclicIndex t])
      ∧ p.lastUrgency = (if publishes s.duties .pace = true then combinedUrgency s else s.pub.lastUrgency)
      ∧ p.late = s.pub.late ∧ p.droppedFlag = s.pub.droppedFlag ∧ p.dropped = s.pub.dropped

/-- Each expiry of the CONFIG_BAD timer restarts it with 1000 ms and builds a NOTICE CONFIG_BAD with the strapped address and
the failed check's code; with the four event places taken it is discarded and counted (R56, R58, R60). -/
def Obligations.ConfigBadTimerSendsANotice : Prop :=
  ∀ (s : State) (due : Nat) (code : CheckCode), s.loader.station = .configFault → s.pub.configBadDue = some due →
    due ≤ s.micros / 1000 → s.loader.failedCheck = some code → HeaderOrder s.pub.list →
    let notice : TxEntry := ⟨.event, topicHeader .notice s.loader.address, s.pub.nextSeq[topicIndex .notice],
      [7, byteOf (checkNumber code), 0], some (s.micros / 1000)⟩
    let numbers := s.pub.nextSeq.set (topicIndex .notice) (s.pub.nextSeq[topicIndex .notice] + 1)
    (placesTaken s < 4 → ∃ l, PlacedBehind notice s.pub.list l
      ∧ exec .configBadTimerExpiry s = .next
        { s with pub := { s.pub with list := l, nextSeq := numbers, configBadDue := some (due + 1000) } })
    ∧ (4 ≤ placesTaken s → exec .configBadTimerExpiry s = .next
        { s with pub := { s.pub with
            nextSeq := numbers
            configBadDue := some (due + 1000)
            droppedFlag := true
            dropped := min 255 (s.pub.dropped + 1)
            lastDropped := 8 } })

/-- Until the next station reset no command changes the image's values, the duty set, the hold set, the subscription table or
the address (R1, R47, R180, R195, R201), and a held ADDRESS_CONFLICT or CONFIG_BAD stays held (R182, R188). -/
def Obligations.ImageAndConflictStandUntilReset : Prop :=
  ∀ (c : Instr) (s t : State), c ≠ .resetAsserted → (∀ straps, c ≠ .stationReset straps) → exec c s = .next t →
    t.loader.address = s.loader.address
    ∧ (s.safe.causes.addressConflict = true → t.safe.causes.addressConflict = true)
    ∧ (s.safe.causes.configBad = true → t.safe.causes.configBad = true)
    ∧ (s.loader.station ≠ .configuring →
        t.params = s.params ∧ t.duties = s.duties ∧ t.safe.hold = s.safe.hold ∧ t.picture.table = s.picture.table)

/-! ## The Link Controller (spec/02) -/

/-- Idle brings the receiver to WAITING and a link in HUNT to ON, and marks a short frame when one was being collected,
whatever the transmitter does (R29, R32, R35). A bad stop bit in IN_FRAME latches the framing flag and sends the receiver to
HUNT, and elsewhere does nothing (R29, R31); of a frame that the station itself sends it is a transmit fault (R37, R39). -/
def Obligations.IdleAndFramingErrorsMoveTheReceiver : Prop :=
  ∀ s : State,
    (s.loader.station ≠ .configuring → exec .idleSeen s = .next
      { s with link := { s.link with
          receiver := .waiting
          shortFlag := s.link.shortFlag || decide (s.link.receiver = .inFrame)
          state := if s.link.state = .hunt then .on else s.link.state } })
    ∧ (s.link.receiver = .inFrame → s.link.transmitter ≠ .contend → s.link.transmitter ≠ .send →
      exec .framingError s = .next { s with link := { s.link with framingFlag := true, receiver := .hunt } })
    ∧ (s.link.receiver ≠ .inFrame → exec .framingError s = .next s)

/-- A frame of 5 + L characters completes: the CRC of its first 3 + L characters against the last two says whether it joins
the tail of the holding queue with origin OTHERS, is dropped at a full queue, or is discarded with the CRC flag; the receiver
goes to HUNT (R27, R28, R30, R33, R34). -/
def Obligations.CompletedFrameIsCheckedAndHeld : Prop :=
  ∀ (c0 c1 seq : Byte) (payload : List Byte) (k0 k1 : Byte) (s : State),
    payload.length = c1.toNat % 16 → s.link.receiver = .inFrame →
    s.link.transmitter ≠ .contend → s.link.transmitter ≠ .send →
    let l := { s.link with receiver := .hunt }
    let good := crc16 ([c0, c1, seq] ++ payload) = k0 ++ k1
    (good → l.holding.length < 4 →
      exec (.receiveFrameComplete ([c0, c1, seq] ++ payload ++ [k0, k1])) s = .next
        { s with link := { l with holding := l.holding ++ [⟨.others, c0 ++ c1, seq, payload⟩] } })
    ∧ (good → 4 ≤ l.holding.length →
      exec (.receiveFrameComplete ([c0, c1, seq] ++ payload ++ [k0, k1])) s = .next
        { s with link := { l with overrunFlag := true } })
    ∧ (¬good → exec (.receiveFrameComplete ([c0, c1, seq] ++ payload ++ [k0, k1])) s = .next
        { s with link := { l with crcFlag := true } })

/-- What one station sends another receives: the characters that a transmit list entry puts on the wire, completed at a
receiver, are held there with the entry's own header, sequence number and payload (R27, R28, R30, R33, R40). -/
def Obligations.SentFrameIsReadBack : Prop :=
  ∀ (e : TxEntry) (s : State), e.payload.length = headerLength e.header →
    s.link.receiver = .inFrame → s.link.transmitter ≠ .contend → s.link.transmitter ≠ .send →
    s.link.holding.length < 4 →
    (frameChars e.header e.seq e.payload).length = 5 + headerLength e.header
    ∧ exec (.receiveFrameComplete (frameChars e.header e.seq e.payload)) s = .next
      { s with link := { s.link with
          receiver := .hunt
          holding := s.link.holding ++ [⟨.others, e.header, e.seq, e.payload⟩] } }

/-- A start bit, the station's own or another's, makes the head of the list the frame in hand of a station that is ON, WAITING
and QUIET with a list; a station that may not send only receives; a contest won goes on to SEND (R29, R30, R36, R37). That a
station with a frame in hand begins no other is an inference (notes/assumptions/27.md). -/
def Obligations.StartBitTakesTheHeadOfTheList : Prop :=
  ∀ s : State,
    (∀ e rest, s.link.state = .on → s.link.receiver = .waiting → s.link.transmitter = .quiet → s.pub.list = e :: rest →
      ∀ c ∈ [Instr.transmitStart, Instr.frameBegins], exec c s = .next
        { s with
          pub := { s.pub with list := rest }
          link := { s.link with inHand := some e, transmitter := .contend, receiver := .inFrame } })
    ∧ (s.link.receiver = .waiting → s.link.state ≠ .on ∨ s.pub.list = [] ∨ s.link.transmitter ≠ .quiet →
      exec .frameBegins s = .next { s with link := { s.link with receiver := .inFrame } }
      ∧ exec .transmitStart s = .next s)
    ∧ (s.link.receiver ≠ .waiting → exec .frameBegins s = .next s ∧ exec .transmitStart s = .next s)
    ∧ (s.link.transmitter = .contend →
      exec .arbitrationWon s = .next { s with link := { s.link with transmitter := .send } })

/-- A frame not sent returns to the list. A lost contest makes the transmitter QUIET and leaves the receiver collecting the
winner's frame, tally and flags as they were (R38, R57). An abort's end below the MUTE limit makes it QUIET with the tally up
by 8 (R39, R41, R57). -/
def Obligations.FrameNotSentReturnsToTheList : Prop :=
  ∀ (s : State) (e : TxEntry), s.link.inHand = some e → HeaderOrder s.pub.list →
    ∃ l, Returned e s.pub.list l
      ∧ (s.link.transmitter = .contend → exec .arbitrationLost s = .next
        { s with link := { s.link with transmitter := .quiet, inHand := none }, pub := { s.pub with list := l } })
      ∧ (∀ due, s.link.transmitter = .abort → s.link.abortDue = some due → due ≤ s.micros → s.link.tally + 8 < 128 →
        exec .abortEnd s = .next
          { s with
            link := { s.link with transmitter := .quiet, abortDue := none, tally := s.link.tally + 8, inHand := none }
            pub := { s.pub with list := l } })

/-- A transmit fault in CONTEND or SEND begins an abort of 12 bit times and sends the station's own receiver to HUNT with no
flag (R25, R37, R39). An abort's end that brings the tally to 128 or more: MUTE with 500 ms to run, the MUTE-entered flag, the
cause LINK_MUTE, and, when that cause is new, one HALT with cause LINK_MUTE and no duty (R39, R41, R183, R185, R186, R208),
whichever of the MUTE entry and the frame's return comes first (notes/assumptions/8.md); on a station not SAFE it is a SAFE entry,
as SafeEntered has it (R184), and on a SAFE one the duties stay (R183). The MUTE timer's expiry: tally 0,
link HUNT, receiver HUNT, together (R42). -/
def Obligations.AbortsAndMuteRunTheirCourse : Prop :=
  ∀ s : State,
    (∀ rate : BitRate, s.link.transmitter = .contend ∨ s.link.transmitter = .send → s.link.bitRate = some rate →
      exec .transmitFault s = .next
        { s with link := { s.link with
            transmitter := .abort
            receiver := .hunt
            abortDue := some (s.micros + 12 * match rate with | .k125 => 8 | .k250 => 4 | .k500 => 2) } })
    ∧ (∀ (e : TxEntry) (due : Nat), s.link.transmitter = .abort → s.link.abortDue = some due → due ≤ s.micros →
      s.link.inHand = some e → 128 ≤ s.link.tally + 8 →
      ∃ t, exec .abortEnd s = .next t
        ∧ t.link = { s.link with
            transmitter := .quiet
            abortDue := none
            tally := s.link.tally + 8
            inHand := none
            state := .mute
            muteDue := some (s.micros / 1000 + 500)
            muteFlag := true }
        ∧ t.safe = { s.safe with causes := { s.safe.causes with linkMute := true } }
        ∧ t.held = s.held ∧ t.micros = s.micros ∧ t.loader = s.loader ∧ t.duties = s.duties ∧ t.params = s.params
        ∧ t.picture = s.picture ∧ t.inputs = s.inputs ∧ t.pending = s.pending
        ∧ (isSafe s = false → SafeEntered s t) ∧ (isSafe s = true → DutiesStay s t)
        ∧ (s.safe.causes.linkMute = true → t.pub.nextSeq = s.pub.nextSeq)
        ∧ (s.safe.causes.linkMute = false → s.loader.station = .operating →
          t.pub.nextSeq[topicIndex .halt] = s.pub.nextSeq[topicIndex .halt] + 1
          ∧ (placesTaken s < 4 → builtEvent s .halt [3, 5] ∈ t.pub.list)))
    ∧ (∀ due : Nat, s.link.state = .mute → s.link.muteDue = some due → due ≤ s.micros / 1000 →
      exec .muteTimerExpiry s = .next
        { s with link := { s.link with state := .hunt, receiver := .hunt, tally := 0, muteDue := none } })

/-- A success: the tally down by 1 but not below 0, QUIET, the receiver to HUNT, and the echo copy at the tail of the holding
queue with origin SELF or dropped at a full one (R34, R40). An event's success with a dropped count above 0 also builds the
NOTICE PUBLICATION_DROPPED that is owed, or leaves it owed for this instant, so that an event asked for together with the free
place may take it first (R58; which, is free: notes/assumptions/26.md). -/
def Obligations.TransmitSuccessEchoesTheFrame : Prop :=
  ∀ (s : State) (e : TxEntry), s.link.transmitter = .send → s.link.inHand = some e →
    let quiet := { s.link with tally := s.link.tally - 1, transmitter := .quiet, receiver := .hunt, inHand := none }
    let done := if s.link.holding.length < 4
      then { quiet with holding := s.link.holding ++ [⟨.self, e.header, e.seq, e.payload⟩] }
      else { quiet with overrunFlag := true }
    (e.kind = .cyclic ∨ s.pub.dropped = 0 ∨ s.loader.station ≠ .operating →
      exec .transmitSuccess s = .next { s with link := done })
    ∧ (e.kind = .event → 0 < s.pub.dropped → s.loader.station = .operating →
      (s.pub.list.filter (fun x => x.kind == .event)).length < 4 → HeaderOrder s.pub.list →
      ∃ l, PlacedBehind (builtEvent s .notice (spelled [4, s.pub.dropped, s.pub.lastDropped])) s.pub.list l
        ∧ exec .transmitSuccess s = .next
          { s with
            link := done
            pub := if Config.noticeFirst s.micros = true
              then { s.pub with
                list := l
                nextSeq := s.pub.nextSeq.set (topicIndex .notice) (s.pub.nextSeq[topicIndex .notice] + 1)
                dropped := 0 }
              else { s.pub with noticeDue := true } })

/-! ## The Peer Picture (spec/01) -/

/-- A filter pass of a frame that brings no new address conflict: no match discards it silently; the first match discards it
with the short-payload flag when it is shorter than the rule's minimum, and otherwise delivers it as the rule's destination
says, a store leaving the frame at the head until it completes (R2, R3, R5, R6, R7). -/
def Obligations.FilterPassFollowsTheFirstMatch : Prop :=
  ∀ (s : State) (f : HeldFrame) (rest : List HeldFrame), s.loader.station ≠ .configuring → s.picture.store = none →
    s.link.holding = f :: rest →
    f.origin = .self ∨ s.loader.address = 15 ∨ headerSource f.header ≠ s.loader.address
      ∨ s.safe.causes.addressConflict = true →
    let gone := { s.link with holding := rest }
    ((∀ i : Fin 24, ¬RuleMatches s.picture.table[i] f) → exec .filterPass s = .next { s with link := gone })
    ∧ ∀ i : Fin 24, FirstMatch s.picture.table f i →
      let r := s.picture.table[i]
      let entry : EventEntry := ⟨ruleLabel r, f.header, f.seq, f.payload⟩
      (headerLength f.header < r.minLength.toNat → exec .filterPass s = .next
        { s with link := gone, picture := { s.picture with shortPayload := true } })
      ∧ (r.minLength.toNat ≤ headerLength f.header →
        (ruleDestination r = .queue →
          exec .filterPass s = .next { s with link := gone, picture := appendEvent entry s.picture })
        ∧ (ruleDestination r = .slot → exec .filterPass s = .next { s with picture := { s.picture with store := some i } })
        ∧ (ruleDestination r = .slotAndQueue → exec .filterPass s = .next
            { s with picture := { appendEvent entry s.picture with store := some i } }))

/-- An append to the event queue: at the tail while fewer than 16 entries stand; at 16, a HALT_IN entry removes the oldest
entry not labelled HALT_IN, and any other entry, or a HALT_IN among sixteen of its kind, is dropped, with the overrun flag
(R21, R22). -/
def Obligations.FullEventQueueKeepsHalts : Prop :=
  ∀ (e : EventEntry) (p : Picture),
    (p.events.length < 16 → appendEvent e p = { p with events := p.events ++ [e] })
    ∧ (p.events.length = 16 →
      (∀ before x after, e.label = .haltIn → p.events = before ++ x :: after → x.label ≠ .haltIn →
        (∀ y ∈ before, y.label = .haltIn) →
        appendEvent e p = { p with events := before ++ after ++ [e], eventOverrun := true })
      ∧ (e.label = .haltIn → (∀ y ∈ p.events, y.label = .haltIn) → appendEvent e p = { p with eventOverrun := true })
      ∧ (e.label ≠ .haltIn → appendEvent e p = { p with eventOverrun := true }))

/-- A frame from another station with this station's address 0–14 as source brings the cause ADDRESS_CONFLICT and asks for one
HALT, with that cause and no duty, and is then filtered like any other: no match, too short, and each destination (R4, R6, R7,
R182, R183, R185, R208). On a station not SAFE it is a SAFE entry, as SafeEntered has it (R184), and on a SAFE one the duties stay
(R183). That the HALT discarded in CONFIG_FAULT takes no number there is an inference (R60; notes/assumptions/16.md). -/
def Obligations.OwnAddressFromOthersIsAConflict : Prop :=
  ∀ (s : State) (f : HeldFrame) (rest : List HeldFrame), s.loader.station ≠ .configuring → s.picture.store = none →
    s.link.holding = f :: rest → f.origin = .others → s.loader.address ≠ 15 →
    headerSource f.header = s.loader.address → s.safe.causes.addressConflict = false →
    let gone := { s.link with holding := rest }
    ∃ t, exec .filterPass s = .next t
      ∧ t.safe = { s.safe with causes := { s.safe.causes with addressConflict := true } }
      ∧ t.loader = s.loader ∧ t.inputs = s.inputs ∧ t.params = s.params ∧ t.duties = s.duties ∧ t.micros = s.micros
      ∧ t.held = s.held ∧ t.pending = s.pending
      ∧ (isSafe s = false → SafeEntered s t) ∧ (isSafe s = true → DutiesStay s t)
      ∧ t.picture.table = s.picture.table ∧ t.picture.slots = s.picture.slots
      ∧ ((∀ i : Fin 24, ¬RuleMatches s.picture.table[i] f) → t.picture = s.picture ∧ t.link = gone)
      ∧ (∀ i : Fin 24, FirstMatch s.picture.table f i →
        let r := s.picture.table[i]
        let entry : EventEntry := ⟨ruleLabel r, f.header, f.seq, f.payload⟩
        (headerLength f.header < r.minLength.toNat →
          t.picture = { s.picture with shortPayload := true } ∧ t.link = gone)
        ∧ (r.minLength.toNat ≤ headerLength f.header →
          (ruleDestination r = .queue → t.picture = appendEvent entry s.picture ∧ t.link = gone)
          ∧ (ruleDestination r = .slot → t.picture = { s.picture with store := some i } ∧ t.link = s.link)
          ∧ (ruleDestination r = .slotAndQueue →
            t.picture = { appendEvent entry s.picture with store := some i } ∧ t.link = s.link)))
      ∧ (s.loader.station = .operating ∨ s.loader.station = .joining →
          t.pub.nextSeq[topicIndex .halt] = s.pub.nextSeq[topicIndex .halt] + 1)
      ∧ AsksEvent s .halt [2, 5] t.pub

/-- A store's completion replaces the whole record by the frame at the head, its first twelve payload bytes, FRESH, arrived
now with the rule's age limit to its deadline; the gap flag is latched when a record of the same source stood there and the
sequence number is not the next one; the frame leaves the queue and every other slot is as it was (R3, R11, R12, R13, R14). -/
def Obligations.StoreCompletionWritesTheSlot : Prop :=
  ∀ (s : State) (i : Fin 24) (f : HeldFrame) (rest : List HeldFrame) (n : Fin 32), s.picture.store = some i →
    s.link.holding = f :: rest → (s.picture.table[i]).slotNumber.toNat = n.val →
    let arrival := s.micros / 1000
    let record : SlotRecord := ⟨.fresh, i, f.header, f.seq, f.payload.take 12, arrival,
      some (arrival + (s.picture.table[i]).ageSteps.toNat * 10)⟩
    ∃ gap, exec .storeComplete s = .next
        { s with
          link := { s.link with holding := rest }
          picture := { s.picture with store := none, slots := s.picture.slots.set n ⟨some record, gap⟩ } }
      ∧ (gap = true ↔ (s.picture.slots[n]).gap = true
          ∨ ∃ old, (s.picture.slots[n]).record = some old ∧ headerSource old.header = headerSource f.header
            ∧ f.seq ≠ old.seq + 1)

/-- A slot's deadline: FRESH becomes AGED and the deadline moves on by the age limit, AGED becomes LOST with none; a LOST or
EMPTY slot stays; the record stays as it was (R10, R15). -/
def Obligations.SlotDeadlineAgesTheSlot : Prop :=
  ∀ (s : State) (n : Fin 32),
    (∀ (r : SlotRecord) (deadline : Nat), (s.picture.slots[n]).record = some r → r.deadline = some deadline →
      deadline ≤ s.micros / 1000 →
      (r.age = .fresh → exec (.slotDeadline n) s = .next { s with picture := { s.picture with
          slots := s.picture.slots.set n ⟨some { r with
            age := .aged
            deadline := some (deadline + (s.picture.table[r.rule]).ageSteps.toNat * 10) }, (s.picture.slots[n]).gap⟩ } })
      ∧ (r.age = .aged → exec (.slotDeadline n) s = .next { s with picture := { s.picture with
          slots := s.picture.slots.set n ⟨some { r with age := .lost, deadline := none },
            (s.picture.slots[n]).gap⟩ } }))
    ∧ ((s.picture.slots[n]).record = none → exec (.slotDeadline n) s = .next s)
    ∧ (∀ r, (s.picture.slots[n]).record = some r →
        r.deadline = none ∨ (∃ deadline, r.deadline = some deadline ∧ s.micros / 1000 < deadline) →
        exec (.slotDeadline n) s = .next s)

/-- What the blocks read of the slots. A rule's label code and a record's fields, a field beyond the stored bytes being 0
(R19, R209). A slot's label and required marking, from the rule recorded in it or, of an EMPTY slot, from the lowest-numbered
rule that names it (R10). Every slot of a label, in slot-number order; and of OPERATOR_IN and TRAVEL_IN the lowest-numbered
slot alone, when it is FRESH or AGED and holds its label's own topic (R18, R19). -/
def Obligations.LabelsFindTheirSlots : Prop :=
  ∀ s : State,
    let p := s.picture
    (∀ (r : Rule) (l : Label),
      [Label.plain, .paceIn, .travelIn, .operatorIn, .armIn, .waterIn, .haltIn, .noticeIn, .controlIn][r.labelCode.toNat]?
        = some l → ruleLabel r = l)
    ∧ (∀ (bytes : List Byte) (k : Nat),
      (byteAt bytes k = match bytes[k]? with | some b => b.toNat | none => 0)
      ∧ (∀ b0 b1, bytes[k]? = some b0 → bytes[k + 1]? = some b1 → wordAt bytes k = b0.toNat * 256 + b1.toNat)
      ∧ (∀ b0 b1 b2, bytes[k]? = some b0 → bytes[k + 1]? = some b1 → bytes[k + 2]? = some b2 →
        longAt bytes k = b0.toNat * 65536 + b1.toNat * 256 + b2.toNat)
      ∧ (bytes.length ≤ k + 1 → wordAt bytes k = 0) ∧ (bytes.length ≤ k + 2 → longAt bytes k = 0))
    ∧ (∀ n l, slotLabel p n = some l ↔ ∃ i, GovernsSlot p n i ∧ ruleLabel p.table[i] = l)
    ∧ (∀ n, slotRequired p n = true ↔ ∃ i, GovernsSlot p n i ∧ (p.table[i]).required = true)
    ∧ (∀ l, (slotsOf p l).Pairwise (fun m n => m < n) ∧ ∀ n, n ∈ slotsOf p l ↔ slotLabel p n = some l)
    ∧ (∀ r, operatorRecord s = some r ↔ ReadAsOne p .operatorIn .operator r)
    ∧ (∀ r, travelRecord s = some r ↔ ReadAsOne p .travelIn .travel r)

/-! ## The Event Handler, SAFE and CLEAR (spec/01, spec/10) -/

/-- The entry at the head of the event queue carries a label, a topic and, in its first two payload bytes, a target and items.
-/
def Sys2Proof.Machine.headEntry (s : State) (e : EventEntry) (rest : List EventEntry) (l : Label) (t : Topic) : Prop :=
  s.loader.station ≠ .configuring ∧ s.picture.events = e :: rest ∧ e.label = l ∧ headerTopic e.header = topicNumber t

/-- A CLEAR addressed to this station or to all, with an items byte of the given value, stands at the head of the queue (R24,
R187, R208). -/
def Sys2Proof.Machine.clearAtHead (s : State) (rest : List EventEntry) (items : Nat) : Prop :=
  ∃ e, headEntry s e rest .controlIn .clear ∧ byteAt e.payload 1 = items
    ∧ (byteAt e.payload 0 = s.loader.address.toNat ∨ byteAt e.payload 0 = 15)

/-- A HALT_IN entry on a station not SAFE: SAFE with PEER_HALT alone, and the entry that every cause makes (SafeEntered): every
claim 0, STOP, STATION_SAFE; a RUNNING drive HALTING and a STANDING one HELD, with nothing else of it moved; every arm not STOWED
and not in FAULT in FAULT with cause STATION_SAFE, its list abandoned, its lines at the hold set, its brush at rest; a PRIMING,
SPRAYING or IDLE water duty OFF with pump and valves shut. In OPERATING, PACE is built at once unless the last urgency was STOP,
and ARM and WATER at each change of state. No HALT or other event is asked for (R24, R55, R68, R70, R90, R140, R161, R182, R184,
R186). -/
def Obligations.PeerHaltPutsTheStationInSafe : Prop :=
  ∀ (s : State) (e : EventEntry) (rest : List EventEntry), headEntry s e rest .haltIn .halt → isSafe s = false →
    ∃ t, exec .eventHandlerTake s = .next t
      ∧ t.picture = { s.picture with events := rest }
      ∧ t.safe = ⟨⟨false, true, false, false, false⟩, s.safe.hold⟩
      ∧ t.loader = s.loader ∧ t.link = s.link ∧ t.inputs = s.inputs ∧ t.params = s.params ∧ t.duties = s.duties
      ∧ t.held = s.held ∧ t.micros = s.micros ∧ t.pending = s.pending
      ∧ SafeEntered s t ∧ SameEvents s.pub t.pub

/-- A CLEAR with RELEASE_SAFE alone on a SAFE station whose every cause has gone and whose drive, if carried, is below 50
mm/s: the cause set is empty; every duty's claim is formed anew from its own state; an arm in FAULT with cause STATION_SAFE
goes RETRACTING with its list from step 1, or on to STOWED through a list that is done at once, with an ARM frame in OPERATING,
and any other keeps its state; drive and water are not moved; no event is asked for (R55, R68, R141, R187, R188, R189). -/
def Obligations.ClearReleasesSafe : Prop :=
  ∀ (s : State) (rest : List EventEntry), clearAtHead s rest 1 → isSafe s = true →
    (∀ c, hasCause s.safe.causes c = true → CauseGone s c) → (s.duties.drive = true → s.drive.vm < 50) →
    ∃ t, exec .eventHandlerTake s = .next t ∧ isSafe t = false ∧ t.safe.hold = s.safe.hold
      ∧ t.picture = { s.picture with events := rest }
      ∧ t.loader = s.loader ∧ t.link = s.link ∧ t.inputs = s.inputs ∧ t.params = s.params ∧ t.duties = s.duties
      ∧ t.held = s.held ∧ t.micros = s.micros ∧ t.pending = s.pending
      ∧ t.drive = { s.drive with claim := if s.duties.drive then some (driveOwnClaim s) else s.drive.claim }
      ∧ t.water = { s.water with
          claim := if s.duties.water then some (waterOwnClaim s.params.water s.water) else s.water.claim }
      ∧ t.console = { s.console with
          claim := if s.duties.console then some ⟨6000, .normal, .none⟩ else s.console.claim }
      ∧ (∀ u, armPresent s u = false → t.arm u = s.arm u)
      ∧ (∀ u, armPresent s u = true → (t.arm u).claim = some (armOwnClaim (armParams s u) (t.arm u))
          ∧ ((s.arm u).state ≠ .fault ∨ (s.arm u).cause ≠ .stationSafe →
              t.arm u = { s.arm u with claim := some (armOwnClaim (armParams s u) (s.arm u)) })
          ∧ ((s.arm u).state = .fault → (s.arm u).cause = .stationSafe →
              ((t.arm u).state = .retracting ∨ (t.arm u).state = .stowed) ∧ (t.arm u).cause = .none
              ∧ t.arm u = armTakes { s with safe := t.safe } u .retract { s.arm u with cause := .none }
              ∧ (s.loader.station = .operating → ArmAnnounced t u)))
      ∧ SameEvents s.pub t.pub

/-- A refused RELEASE_SAFE on an OPERATING station leaves causes, flag and duties as they were and enqueues a NOTICE
RELEASE_REFUSED that names the first held cause that has not gone or, when the drive's speed alone refused, the first held
(R56, R188, R190). -/
def Obligations.RefusedReleaseNamesACause : Prop :=
  ∀ (s : State) (rest : List EventEntry) (c : Cause), clearAtHead s rest 1 → s.loader.station = .operating →
    hasCause s.safe.causes c = true →
    (¬CauseGone s c ∧ ∀ b, causeNumber b < causeNumber c → hasCause s.safe.causes b = true → CauseGone s b)
      ∨ ((∀ b, hasCause s.safe.causes b = true → CauseGone s b) ∧ s.duties.drive = true ∧ 50 ≤ s.drive.vm
        ∧ ∀ b, causeNumber b < causeNumber c → hasCause s.safe.causes b = false) →
    placesTaken s < 4 → HeaderOrder s.pub.list →
    let notice : TxEntry := ⟨.event, topicHeader .notice s.loader.address, s.pub.nextSeq[topicIndex .notice],
      [3, byteOf (causeNumber c), 0], some (s.micros / 1000)⟩
    ∃ l, PlacedBehind notice s.pub.list l ∧ exec .eventHandlerTake s = .next
      { s with
        picture := { s.picture with events := rest }
        pub := { s.pub with
          list := l
          nextSeq := s.pub.nextSeq.set (topicIndex .notice) (s.pub.nextSeq[topicIndex .notice] + 1) } }

/-- A CLEAR with LATCHES alone clears every latched flag of the station, SAFE or not, and moves a FAULT water duty to OFF, its
claim formed anew and WATER built at once in OPERATING; cause set, tally, dropped count, events, channels and arms stay (R20,
R44, R55, R64, R70, R115, R160, R167, R187, R192). Of the late flag after such a move nothing is said (notes/assumptions/28.md).
-/
def Obligations.LatchesClearEveryFlag : Prop :=
  ∀ (s : State) (rest : List EventEntry), clearAtHead s rest 2 →
    ∃ t, exec .eventHandlerTake s = .next t
      ∧ t.link = { s.link with
          crcFlag := false, framingFlag := false, shortFlag := false, overrunFlag := false, muteFlag := false }
      ∧ t.picture.events = rest ∧ t.picture.table = s.picture.table ∧ t.picture.store = s.picture.store
      ∧ t.picture.shortPayload = false ∧ t.picture.eventOverrun = false
      ∧ (∀ n : Fin 32, t.picture.slots[n] = { s.picture.slots[n] with gap := false })
      ∧ t.inputs = { s.inputs with sensorLost := false }
      ∧ t.pub.droppedFlag = false ∧ t.pub.dropped = s.pub.dropped ∧ t.pub.deferred = s.pub.deferred
      ∧ t.safe = s.safe ∧ t.loader = s.loader ∧ t.params = s.params ∧ t.duties = s.duties ∧ t.drive = s.drive
      ∧ t.armA = s.armA ∧ t.armB = s.armB ∧ t.console = s.console ∧ t.micros = s.micros ∧ t.pending = s.pending
      ∧ (s.duties.water = false ∨ s.water.state ≠ .fault → t.water = s.water
          ∧ t.pub = { s.pub with late := false, droppedFlag := false })
      ∧ SameEvents { s.pub with droppedFlag := false } t.pub
      ∧ (s.duties.water = true → s.water.state = .fault → t.water.state = .off ∧ t.water.q = 0 ∧ t.water.pump = 0
          ∧ t.water.dry = s.water.dry
          ∧ t.water.claim = some (if isSafe s = true then ⟨0, .stop, .stationSafe⟩ else waterOwnClaim s.params.water s.water)
          ∧ (s.loader.station = .operating → Announced t .water) ∧ PaceRises s t)

/-- A CLEAR with one arm item on an OPERATING station that is not SAFE frees that arm from FAULT: cause NONE, RETRACTING with
its list from step 1, and an ARM frame at once; for any other arm, in any other station, it does nothing (R55, R141, R193). A
CLEAR with several items is the CLEARs with one item each in the order RELEASE_SAFE, LATCHES, ARM_A, ARM_B, each taken whole
before the next; one with none does nothing (R187, R208). -/
def Obligations.ClearTakesItsItemsInOrder : Prop :=
  ∀ (s : State) (e : EventEntry) (rest : List EventEntry), headEntry s e rest .controlIn .clear →
    byteAt e.payload 0 = s.loader.address.toNat ∨ byteAt e.payload 0 = 15 →
    let taken := { s with picture := { s.picture with events := rest } }
    let named (bit : Nat) := byteAt e.payload 1 / bit % 2 = 1
    let one (items : Byte) (x : State) : State := { x with picture := { x.picture with
      events := { e with payload := [e.payload.getD 0 0, items] } :: x.picture.events } }
    (∀ u, byteAt e.payload 1 = (match u with | .a => 4 | .b => 8) →
      (s.loader.station = .operating → armPresent s u = true → (s.arm u).state = .fault → isSafe s = false →
        ∃ t, exec .eventHandlerTake s = .next t
          ∧ t = { taken.withArm u (armTakes s u .retract { s.arm u with cause := .none }) with pub := t.pub }
          ∧ ArmAnnounced t u ∧ SameEvents s.pub t.pub)
      ∧ (s.loader.station ≠ .operating ∨ armPresent s u = false ∨ (s.arm u).state ≠ .fault ∨ isSafe s = true →
        exec .eventHandlerTake s = .next taken))
    ∧ (byteAt e.payload 1 % 16 = 0 → exec .eventHandlerTake s = .next taken)
    ∧ ∃ released latched freed : State,
      (if named 1 then exec .eventHandlerTake (one 1 taken) = .next released else released = taken)
      ∧ (if named 2 then exec .eventHandlerTake (one 2 released) = .next latched else latched = released)
      ∧ (if named 4 then exec .eventHandlerTake (one 4 latched) = .next freed else freed = latched)
      ∧ (if named 8 then exec .eventHandlerTake s = exec .eventHandlerTake (one 8 freed)
        else exec .eventHandlerTake s = .next freed)

/-- A QUERY for this station, address 0–14, on an OPERATING station with an event place free enqueues the REPORT of this
instant: STATUS, with its flag summary and channel states bit by bit, when the what field is 1, IDENT otherwise (R24, R48,
R56, R61, R62, R63, R207, R208). -/
def Obligations.QueryIsAnsweredByAReport : Prop :=
  ∀ (s : State) (e : EventEntry) (rest : List EventEntry), headEntry s e rest .controlIn .query →
    byteAt e.payload 0 = s.loader.address.toNat → s.loader.address ≠ 15 → s.loader.station = .operating →
    placesTaken s < 4 → HeaderOrder s.pub.list →
    ∃ payload l, ∃ gap truncated : Bool, PlacedBehind (builtEvent s .report payload) s.pub.list l
      ∧ exec .eventHandlerTake s = .next
        { s with
          picture := { s.picture with events := rest }
          pub := { s.pub with
            list := l
            nextSeq := s.pub.nextSeq.set (topicIndex .report) (s.pub.nextSeq[topicIndex .report] + 1) } }
      ∧ (gap = true ↔ ∃ n : Fin 32, (s.picture.slots[n]).gap = true)
      ∧ (truncated = true ↔ ∃ (n : Fin 32) (r : SlotRecord), (s.picture.slots[n]).record = some r ∧ 12 < headerLength r.header)
      ∧ (byteAt e.payload 1 ≠ 1 → payload =
          [0, 0x3D, 0x09, 0x9C, 1, byteOf s.loader.address.toNat,
            byteOf ((if s.duties.drive then 1 else 0) + (if s.duties.armA then 2 else 0)
              + (if s.duties.armB then 4 else 0) + (if s.duties.water then 8 else 0) + (if s.duties.console then 16 else 0))]
          ++ wordBytes (s.loader.imageCrc.getD 0))
      ∧ (byteAt e.payload 1 = 1 → payload =
          [1, byteOf ((if s.safe.causes.haltButton then 1 else 0) + (if s.safe.causes.peerHalt then 2 else 0)
              + (if s.safe.causes.linkMute then 4 else 0) + (if s.safe.causes.addressConflict then 8 else 0)
              + (if s.safe.causes.configBad then 16 else 0)),
            byteOf ([LinkState.hunt, .on, .mute].idxOf s.link.state), byteOf s.link.tally]
          ++ spelled (twoBytes ((if s.link.crcFlag then 32768 else 0) + (if s.link.framingFlag then 16384 else 0)
            + (if s.link.shortFlag then 8192 else 0) + (if s.link.muteFlag then 4096 else 0)
            + (if s.picture.shortPayload then 2048 else 0) + (if gap then 1024 else 0) + (if truncated then 512 else 0)
            + (if s.pub.late then 256 else 0) + (if s.pub.droppedFlag then 128 else 0)
            + (if s.inputs.sensorLost then 64 else 0) + (if s.water.state = .fault then 32 else 0)))
          ++ [byteOf ((if s.link.overrunFlag then 1 else 0) + (if s.picture.eventOverrun then 2 else 0))]
          ++ (let channel (i : Fin 6) := [ChannelState.stopped, .tracking, .oneMissing, .lost].idxOf (s.inputs.pulse[i]).state
            spelled (twoBytes (channel 0 * 16384 + channel 1 * 4096 + channel 2 * 1024 + channel 3 * 256 + channel 4 * 64
              + channel 5 * 16))))

/-- A NOTICE_IN entry sets the console duty's lamp deadline 5000 ms on, whatever stood there (R24, R178). An entry without an
owner leaves the queue with no effect: of a label that names none, of a topic that is not its label's, a NOTICE on a station
without the console duty, a CLEAR for another target, and a QUERY for another target or for 15 (R24). -/
def Obligations.NoticeLightsTheLampOthersAreDropped : Prop :=
  ∀ (s : State) (e : EventEntry) (rest : List EventEntry), s.loader.station ≠ .configuring → s.picture.events = e :: rest →
    let topic := headerTopic e.header
    let target := byteAt e.payload 0
    let dropped := exec .eventHandlerTake s = .next { s with picture := { s.picture with events := rest } }
    (e.label = .noticeIn → topic = topicNumber .notice → s.duties.console = true →
      exec .eventHandlerTake s = .next
        { s with
          picture := { s.picture with events := rest }
          console := { s.console with lampDeadline := some (s.micros / 1000 + 5000) } })
    ∧ (e.label = .noticeIn → topic ≠ topicNumber .notice ∨ s.duties.console = false → dropped)
    ∧ (e.label = .haltIn → topic ≠ topicNumber .halt → dropped)
    ∧ (e.label = .controlIn → topic ≠ topicNumber .clear → topic ≠ topicNumber .query → dropped)
    ∧ (e.label = .controlIn → topic = topicNumber .clear → target ≠ s.loader.address.toNat → target ≠ 15 → dropped)
    ∧ (e.label = .controlIn → topic = topicNumber .query → target ≠ s.loader.address.toNat ∨ target = 15 → dropped)
    ∧ (e.label ≠ .haltIn → e.label ≠ .controlIn → e.label ≠ .noticeIn → dropped)

/-- The pins: all off in CONFIGURING and CONFIG_FAULT; the hold set in JOINING and while SAFE, but for both coil lines of a
HALTING drive; otherwise what the line's duty sets, and the hold set for a line with no role. That no line has two roles is
what R198 checks (R101, R102, R142, R166, R178, R181). -/
def Obligations.OutputLinesFollowSafeControl : Prop :=
  ∀ (s : State) (v : Fin 16) (w : Fin 8),
    (s.loader.station = .configuring ∨ s.loader.station = .configFault → valvePin s v = false ∧ pwmPin s w = 0)
    ∧ (s.loader.station = .joining → valvePin s v = s.safe.hold.valves.getLsbD v ∧ pwmPin s w = s.safe.hold.pwm[w])
    ∧ (s.loader.station = .operating → isSafe s = true →
        valvePin s v = s.safe.hold.valves.getLsbD v
        ∧ (s.drive.state ≠ .halting → pwmPin s w = s.safe.hold.pwm[w])
        ∧ (s.drive.state = .halting → s.duties.drive = true → s.params.drive.fwdLine = some w → pwmPin s w = s.drive.fwdDuty)
        ∧ (s.drive.state = .halting → s.duties.drive = true → s.params.drive.revLine = some w →
            s.params.drive.fwdLine ≠ some w → pwmPin s w = s.drive.revDuty)
        ∧ (s.duties.drive = false ∨ (s.params.drive.fwdLine ≠ some w ∧ s.params.drive.revLine ≠ some w) →
            pwmPin s w = s.safe.hold.pwm[w]))
    ∧ (s.loader.station = .operating → isSafe s = false →
        (v ∉ valveRoles s.duties s.params → valvePin s v = s.safe.hold.valves.getLsbD v)
        ∧ (w ∉ pwmRoles s.duties s.params → pwmPin s w = s.safe.hold.pwm[w])
        ∧ (noRepeat (valveRoles s.duties s.params) = true →
          (s.duties.drive = true → s.params.drive.brakeLine = some v → valvePin s v = s.drive.brakeOn)
          ∧ (∀ u (i : Fin 4), armPresent s u = true → (armParams s u).lines[i] = some v → valvePin s v =
              if (s.arm u).state = .fault then s.safe.hold.valves.getLsbD v else (s.arm u).levels[i])
          ∧ (∀ i : Fin 4, s.duties.water = true → (s.params.water.sprays[i]).line = some v → valvePin s v = s.water.valves[i])
          ∧ (s.duties.console = true → s.params.console.lampLine = some v →
              valvePin s v = s.console.lampDeadline.isSome))
        ∧ (noRepeat (pwmRoles s.duties s.params) = true →
          (s.duties.drive = true → s.params.drive.fwdLine = some w → pwmPin s w = s.drive.fwdDuty)
          ∧ (s.duties.drive = true → s.params.drive.revLine = some w → pwmPin s w = s.drive.revDuty)
          ∧ (∀ u, armPresent s u = true → (armParams s u).brushLine = some w → pwmPin s w =
              if (s.arm u).state = .fault then s.safe.hold.pwm[w] else (s.arm u).pwm)
          ∧ (s.duties.water = true → s.params.water.pumpLine = some w → pwmPin s w = s.water.pump)))

/-- A block's request for an event changes the Publication Scheduler alone, and that as AskedEvent says: the frame built at its
place in OPERATING or deferred in JOINING; at full places a HALT displacing the highest event that is not a HALT, and anything
else discarded with flag, count and topic; nothing in CONFIGURING and CONFIG_FAULT (R48, R53, R56, R58, R59, R60). That an event
discarded in CONFIG_FAULT takes no number and is not counted is an inference (notes/assumptions/16.md). Which of equal events
was enqueued last is read from the list's order (notes/assumptions/23.md). -/
def Obligations.EventRequestsKeepTheirPlaces : Prop :=
  ∀ (s : State) (topic : Topic) (payload : List Byte),
    ∃ p, requestEvent topic payload s = { s with pub := p } ∧ AskedEvent s topic payload p

/-! ## The Publication Scheduler (spec/03) -/

/-- A cyclic topic's period expiry restarts its timer with the full period from that expiry and builds a frame of this
instant's state, byte by byte: a new entry at its place, or, when one is pending, that entry rebuilt in its place with the
next sequence number and the late flag; a PACE sets the last PACE urgency (R48, R49, R50, R51, R54, R55, R56, R207, R208). -/
def Obligations.PeriodTimerPublishesItsTopic : Prop :=
  ∀ (s : State) (topic : CyclicTopic) (due : Nat), s.loader.station = .operating → publishes s.duties topic = true →
    s.pub.timers[cyclicIndex topic] = some due → due ≤ s.micros / 1000 → HeaderOrder s.pub.list →
    ∃ p, BuiltCyclic s topic due p ∧ exec (.periodTimerExpiry topic) s = .next { s with pub := p }

/-! ## Pace Arbitration (spec/04) -/

/-- One entry of a run is chosen over another: a smaller ceiling, then a higher urgency, then a lower source (R78). -/
def Sys2Proof.Machine.ChosenOver (a b : PaceEntry) : Prop :=
  a.ceiling < b.ceiling
    ∨ (a.ceiling = b.ceiling ∧ (urgencyCode b.urgency < urgencyCode a.urgency
      ∨ (a.urgency = b.urgency ∧ a.source.toNat < b.source.toNat)))

/-- The result of a run is one of its entries, taken in the order mode entry, own entry, OPERATOR_LOST entry, slots: chosen
over every entry before it and passed over by none after it; and at most 6000 when the image's values are (R71, R78). The mode
entry gives the requested mode's maximum at NORMAL when the operator is heard, OPERATOR_LOST stands in its place with 0 at
STOP when it is not, and the own entry gives the drive's claim, each from the station's address (R72, R73). -/
def Obligations.PaceEngineChoosesTheLeastCeiling : Prop :=
  ∀ s : State,
    (∃ before after,
      modeEntry s ++ [ownEntry s] ++ operatorLostEntry s ++ (slotsOf s.picture .paceIn).flatMap (slotEntry s)
        = before ++ paceRun s :: after
      ∧ (∀ e ∈ before, ChosenOver (paceRun s) e) ∧ ∀ e ∈ after, ¬ChosenOver e (paceRun s))
    ∧ (∀ e ∈ modeEntry s ++ [ownEntry s] ++ operatorLostEntry s, e.source = s.loader.address)
    ∧ (∀ r, operatorRecord s = some r → operatorLostEntry s = [] ∧ modeEntry s =
        [⟨if byteAt r.payload 0 = 1 then s.params.drive.transportMax
          else if byteAt r.payload 0 = 2 then s.params.drive.sweepMax else 0, .normal, s.loader.address, .mode⟩])
    ∧ (operatorRecord s = none → modeEntry s = [] ∧ operatorLostEntry s = [⟨0, .stop, s.loader.address, .operatorLost⟩])
    ∧ (∀ c, s.drive.claim = some c → ownEntry s = ⟨c.ceiling, c.urgency, s.loader.address, c.reason⟩)
    ∧ (s.params.drive.transportMax ≤ 6000 → s.params.drive.sweepMax ≤ 6000 → (ownEntry s).ceiling ≤ 6000 →
      (paceRun s).ceiling ≤ 6000)

/-- What each PACE_IN slot gives the pace engine. FRESH: what its record carries, a ceiling above 6000 read as 6000, unlisted
codes as STOP and NONE, another topic as 0, STOP, PEER_LOST; and the pace ceiling never exceeds it (R74, R75). AGED: the same,
cut to the aged creep at PROMPT or higher when that is strictly smaller (R76). LOST or EMPTY: nothing unless required, and
then 0, STOP, PEER_LOST, from the record's source or the naming rule's (R77). -/
def Obligations.PaceSlotsBoundTheCeiling : Prop :=
  ∀ (s : State) (n : Fin 32), slotLabel s.picture n = some .paceIn →
    (∀ e ∈ slotEntry s n, e ∈ paceEntries s ∧ (paceRun s).ceiling ≤ e.ceiling)
    ∧ (∀ r, (s.picture.slots[n]).record = some r → r.age = .fresh →
      (headerTopic r.header = topicNumber .pace → slotEntry s n = [⟨min 6000 (wordAt r.payload 1),
        urgencyOfCode (byteAt r.payload 3), headerSource r.header, reasonOfCode (byteAt r.payload 4)⟩])
      ∧ (headerTopic r.header ≠ topicNumber .pace → slotEntry s n = [⟨0, .stop, headerSource r.header, .peerLost⟩]))
    ∧ (∀ r, (s.picture.slots[n]).record = some r → r.age = .aged → headerTopic r.header = topicNumber .pace →
      (s.params.drive.agedCreep < min 6000 (wordAt r.payload 1) →
        slotEntry s n = [⟨s.params.drive.agedCreep,
          if urgencyOfCode (byteAt r.payload 3) = .stop then .stop else .prompt, headerSource r.header, .agedCreep⟩])
      ∧ (min 6000 (wordAt r.payload 1) ≤ s.params.drive.agedCreep →
        slotEntry s n = [⟨min 6000 (wordAt r.payload 1), urgencyOfCode (byteAt r.payload 3), headerSource r.header,
          reasonOfCode (byteAt r.payload 4)⟩]))
    ∧ (∀ r, (s.picture.slots[n]).record = some r → r.age = .aged → headerTopic r.header ≠ topicNumber .pace →
        slotEntry s n = [⟨0, .stop, headerSource r.header, .peerLost⟩])
    ∧ (∀ r, (s.picture.slots[n]).record = some r → r.age = .lost → slotEntry s n =
        if slotRequired s.picture n then [⟨0, .stop, headerSource r.header, .peerLost⟩] else [])
    ∧ ((s.picture.slots[n]).record = none → ∃ i : Fin 24, namingRule s.picture.table n = some i ∧ slotEntry s n =
        if (s.picture.table[i]).required then [⟨0, .stop, (s.picture.table[i]).matchValue.extractLsb' 0 4, .peerLost⟩]
        else [])

/-- The combined claim is the claim of one duty carried: in the order DRIVE, ARM_A, ARM_B, WATER, CONSOLE, the first whose
ceiling is the smallest and whose urgency is the highest at that ceiling; while SAFE it is 0, STOP, STATION_SAFE of the first
duty present; without a duty there is none, and no PACE (R69). -/
def Obligations.CombinedClaimIsTheMostLimiting : Prop :=
  ∀ s : State,
    let held := (if s.duties.drive then (s.drive.claim.map fun c => (Duty.drive, c)).toList else [])
      ++ (if s.duties.armA then (s.armA.claim.map fun c => (Duty.armA, c)).toList else [])
      ++ (if s.duties.armB then (s.armB.claim.map fun c => (Duty.armB, c)).toList else [])
      ++ (if s.duties.water then (s.water.claim.map fun c => (Duty.water, c)).toList else [])
      ++ (if s.duties.console then (s.console.claim.map fun c => (Duty.console, c)).toList else [])
    (combinedClaim s = none ↔ held = [])
    ∧ (∀ d c, combinedClaim s = some (d, c) → ∃ before after, held = before ++ (d, c) :: after
      ∧ (∀ x ∈ before, c.ceiling < x.2.ceiling
          ∨ (c.ceiling = x.2.ceiling ∧ urgencyCode x.2.urgency < urgencyCode c.urgency))
      ∧ (∀ x ∈ after, c.ceiling < x.2.ceiling
          ∨ (c.ceiling = x.2.ceiling ∧ urgencyCode x.2.urgency ≤ urgencyCode c.urgency)))
    ∧ (ClaimsHeld s → isSafe s = true → ∀ x more, held = x :: more →
        combinedClaim s = some (x.1, ⟨0, .stop, .stationSafe⟩))
    ∧ (s.duties = ⟨false, false, false, false, false⟩ → combinedClaim s = none ∧ publishes s.duties .pace = false)

/-! ## Travel Drive (spec/05) -/

/-- A drive control period is due on a station that carries the drive, in JOINING or OPERATING (R81). -/
def Sys2Proof.Machine.driveDue (s : State) (due : Nat) : Prop :=
  (s.loader.station = .joining ∨ s.loader.station = .operating) ∧ s.duties.drive = true ∧ s.drive.due = some due
    ∧ due ≤ s.micros / 1000

/-- What a drive period takes from OPERATOR_IN and computes: the claim of R66 or R68; one run of the pace engine on that
claim; the mode in use and Vr; V' ramped to the target by the step its state, urgency and ceiling call for; feedforward,
feedback and anti-windup; the coil duties and the brake; and rest outside RUNNING and HALTING. The timer restarts from this
expiry. Of the scheduler it touches PACE alone: built at once when the claim raises the combined urgency above the last PACE's
(R55, R66, R68, R70, R71, R81, R82, R84, R85, R91–R100, R102). -/
def Obligations.DrivePeriodArithmetic : Prop :=
  ∀ (s : State) (due : Nat), driveDue s due →
    ∃ t, exec .drivePeriodExpiry s = .next t ∧ t = { s with drive := t.drive, pub := t.pub }
      ∧ SameEvents s.pub t.pub
      ∧ ClaimPublished { s with drive := { s.drive with claim := t.drive.claim } } t.pub
      ∧ t.drive.due = some (due + 10)
      ∧ t.drive.claim = some (if isSafe s = true then ⟨0, .stop, .stationSafe⟩
          else if fnState s .wheel = some .lost then
            (if s.drive.direction = .reverse ∧ s.params.drive.reverseMax < s.params.drive.creep
              then ⟨s.params.drive.reverseMax, .normal, .reverseLimit⟩ else ⟨s.params.drive.creep, .prompt, .wheelSensor⟩)
          else if s.drive.direction = .reverse then ⟨s.params.drive.reverseMax, .normal, .reverseLimit⟩
          else ⟨6000, .normal, .none⟩)
      ∧ t.drive.pace = paceRun { s with drive := { s.drive with claim := t.drive.claim } }
      ∧ t.drive.vm = min 6000 (fnValue s .wheel) ∧ t.drive.n = fnValue s .engine
      ∧ (let p := s.params.drive
         let i := driveInputs s
         let old := s.drive
         let new := t.drive
         let vr := i.pedal * modeMax p new.mode old.direction / 1000
         let target := if new.state = .running ∧ i.request = old.direction then min vr new.pace.ceiling else 0
         let rate := if new.state = .halting then p.aEmergency
           else if new.pace.urgency = .stop ∧ new.pace.ceiling < old.v then p.aEmergency
           else if new.pace.urgency = .prompt ∧ new.pace.ceiling < old.v then p.aPrompt
           else p.aDown
         let error : Int := (new.v : Int) - new.vm
         let feed : Int := ((new.v * p.kff / max new.n p.engineMin : Nat) : Int)
         let sum : Int := max (-(p.iLimit * 1024)) (min (p.iLimit * 1024) (old.a1 + error * p.ki))
         let raw : Int := feed + Int.tdiv (error * p.kp) 64 + Int.tdiv sum 1024
         (∀ r, operatorRecord s = some r →
             i.mode = (if byteAt r.payload 0 = 1 then .transport else if byteAt r.payload 0 = 2 then .sweep else .park)
             ∧ i.request = (if byteAt r.payload 1 = 0 then .forward
                 else if byteAt r.payload 1 = 1 then .reverse else old.direction)
             ∧ i.pedal = min 1000 (wordAt r.payload 2))
         ∧ (operatorRecord s = none → i.mode = .park ∧ i.request = old.direction ∧ i.pedal = 0)
         ∧ (∀ m d, modeMax p m d = if m = .park then 0 else if d = .reverse then p.reverseMax
             else if m = .transport then p.transportMax else p.sweepMax)
         ∧ new.mode = (if old.v ≤ modeMax p i.mode old.direction then i.mode else old.mode)
         ∧ new.direction = (if new.state = .standing then i.request else old.direction)
         ∧ new.brakeOn = decide (new.state = .running ∨ new.state = .halting)
         ∧ (new.state ≠ .running → new.state ≠ .halting →
             new.v = 0 ∧ new.a1 = 0 ∧ new.d = 0 ∧ new.fwdDuty = 0 ∧ new.revDuty = 0)
         ∧ (new.state = .running ∨ new.state = .halting →
             new.v = (if old.v < target then old.v + min (max 1 (p.aUp / 100)) (target - old.v)
               else old.v - min (max 1 (rate / 100)) (old.v - target))
             ∧ (fnState s .wheel = some .lost → (new.d : Int) = min 1000 feed ∧ new.a1 = 0)
             ∧ (fnState s .wheel ≠ some .lost → (new.d : Int) = max 0 (min 1000 raw)
               ∧ new.a1 = (if (1000 < raw ∧ 0 < error) ∨ (raw < 0 ∧ error < 0) then old.a1 else sum))
             ∧ (new.direction = .forward →
                 new.fwdDuty = p.iMin + new.d * (p.iMax - p.iMin) / 1000 ∧ new.revDuty = 0)
             ∧ (new.direction = .reverse →
                 new.revDuty = p.iMin + new.d * (p.iMax - p.iMin) / 1000 ∧ new.fwdDuty = 0)))

/-- Every required PACE_IN slot is FRESH or AGED (R86). -/
def Sys2Proof.Machine.RequiredHeard (p : Picture) : Prop :=
  ∀ n, slotLabel p n = some .paceIn → slotRequired p n = true → ∃ r, (p.slots[n]).record = some r ∧ r.age ≠ .lost

/-- At most one transition a period, as the table of spec/05, 5.2 has it, and the standstill timer of R88: from the requested
mode and direction, the engine, Vr, the ceiling, V and Vm, the requests and mode maxima as DrivePeriodArithmetic spells them
(R86, R87, R88, R89). -/
def Obligations.DriveStateFollowsItsTable : Prop :=
  ∀ (s : State) (due : Nat), driveDue s due →
    ∃ t, exec .drivePeriodExpiry s = .next t ∧ t = { s with drive := t.drive, pub := t.pub } ∧ SameEvents s.pub t.pub
      ∧ (let p := s.params.drive
         let i := driveInputs s
         let old := s.drive
         let new := t.drive
         let vr := i.pedal * modeMax p new.mode old.direction / 1000
         let ready := s.loader.station = .operating ∧ isSafe s = false ∧ i.mode ≠ .park
           ∧ (∃ c, fnState s .engine = some c ∧ c ≠ .stopped) ∧ p.engineMin ≤ new.n ∧ vr = 0 ∧ RequiredHeard s.picture
         let waited := ∃ start, old.standstill = some start ∧ start + 1000 ≤ due
         let atRest := new.state = .running ∧ new.v = 0 ∧ new.vm < 50
         (old.state = .parked → (ready → new.state = .standing) ∧ (¬ready → new.state = .parked))
         ∧ (old.state = .standing → (i.mode = .park → new.state = .parked)
           ∧ (i.mode ≠ .park → i.request = old.direction → p.engineMin ≤ new.n → 0 < min vr new.pace.ceiling →
               new.state = .running)
           ∧ (i.mode ≠ .park → i.request ≠ old.direction ∨ new.n < p.engineMin ∨ min vr new.pace.ceiling = 0 →
               new.state = .standing))
         ∧ (old.state = .running → (new.n < p.engineMin → new.state = .halting)
           ∧ (p.engineMin ≤ new.n → waited → new.state = .standing)
           ∧ (p.engineMin ≤ new.n → ¬waited → new.state = .running))
         ∧ (old.state = .halting → (old.v = 0 → new.vm < 50 → new.state = .held)
           ∧ (old.v ≠ 0 ∨ 50 ≤ new.vm → new.state = .halting))
         ∧ (old.state = .held → (isSafe s = false → i.mode = .park → new.state = .parked)
           ∧ (isSafe s = false → i.mode ≠ .park → p.engineMin + 100 ≤ new.n → vr = 0 → new.state = .standing)
           ∧ (isSafe s = true ∨ (i.mode ≠ .park ∧ (new.n < p.engineMin + 100 ∨ vr ≠ 0)) → new.state = .held))
         ∧ (atRest → new.standstill = some (old.standstill.getD due)) ∧ (¬atRest → new.standstill = none))

/-! ## Local Inputs (spec/06) -/

/-- An edge on an assigned pulse channel: within the minimum spacing of the last accepted edge it has no effect at all;
otherwise it is accepted and moves the channel as the table of R111 and the recovery count of R115 have it, and a WHEEL edge
adds its pulse length to the distance (R108, R109, R110, R111, R115). -/
def Obligations.PulseEdgeMovesTheChannel : Prop :=
  ∀ (s : State) (ch : Fin 6), s.loader.station = .joining ∨ s.loader.station = .operating →
    (s.inputs.pulse[ch]).fn ≠ .unused →
    let c := s.inputs.pulse[ch]
    let k := pulseConst s.params c.fn
    (∀ e, c.lastEdge = some e → interval s.micros e < k.minSpacing → exec (.pulseEdge ch) s = .next s)
    ∧ (c.lastEdge = none ∨ (∃ e, c.lastEdge = some e ∧ k.minSpacing ≤ interval s.micros e) →
      ∃ c', exec (.pulseEdge ch) s = .next { s with inputs :=
            if c.fn = .wheel then { s.inputs with
              pulse := s.inputs.pulse.set ch c'
              distance := s.inputs.distance + BitVec.ofNat 32 ((s.inputs.remainder + k.k / 1000) / 1000)
              remainder := (s.inputs.remainder + k.k / 1000) % 1000 }
            else { s.inputs with pulse := s.inputs.pulse.set ch c' } }
        ∧ (c.state = .stopped →
            c' = { c with state := .tracking, period := none, value := 0, lastEdge := some s.micros })
        ∧ (∀ e, c.lastEdge = some e → c.state = .tracking ∨ c.state = .oneMissing →
            c' = { c with
              state := .tracking
              period := some (interval s.micros e)
              value := min 65535 (k.k / interval s.micros e)
              lastEdge := some s.micros
              recovery := 0 })
        ∧ (∀ e, c.lastEdge = some e → c.state = .lost →
            let count := if c.recovery ≠ 0 ∧ interval s.micros e ≤ k.windowSteps * 10000 then c.recovery + 1 else 1
            (count < 8 → c' = { c with period := none, value := 0, lastEdge := some s.micros, recovery := count })
            ∧ (8 ≤ count → c' = { c with
              state := .tracking
              period := some (interval s.micros e)
              value := min 65535 (k.k / interval s.micros e)
              lastEdge := some s.micros
              recovery := 0 }))
        ∧ (c.lastEdge = none → c.state = .lost →
            c' = { c with period := none, value := 0, lastEdge := some s.micros, recovery := 1 }))

/-- A channel's deadlines. At E + 2P, below W, a TRACKING channel is ONE_MISSING. At E + 3P or E + W, whichever is earlier,
the channel is STOPPED when no motion is expected, and LOST, with the sensor-lost flag and a NOTICE SENSOR_LOST of channel and
function, when it is; a STOPPED channel whose input has expected motion for W goes LOST the same way, and its brush fails its
arm, with an ARM frame in OPERATING (R55, R112, R113, R114, R115, R139, R140, R207, R208). -/
def Obligations.PulseDeadlinesMoveTheChannel : Prop :=
  ∀ (s : State) (ch : Fin 6), s.loader.station = .joining ∨ s.loader.station = .operating →
    let c := s.inputs.pulse[ch]
    let window := (pulseConst s.params c.fn).windowSteps * 10000
    let limit := match c.period with | some p => min (3 * p) window | none => window
    let quiet (st : ChannelState) : PulseChannel := { c with state := st, period := none, value := 0, recovery := 0 }
    let goesLost (command : Instr) := ∃ t, exec command s = .next t
      ∧ t.inputs = { s.inputs with pulse := s.inputs.pulse.set ch (quiet .lost), sensorLost := true }
      ∧ AsksEvent s .notice
          (spelled [5, ch.val, [PulseFn.unused, .wheel, .engine, .brushA, .brushB, .flow].idxOf c.fn]) t.pub
      ∧ (c.fn ≠ .brushA → c.fn ≠ .brushB → t = { s with inputs := t.inputs, pub := t.pub })
      ∧ (∀ u, c.fn = brushFn u → t = { s.withArm u (t.arm u) with inputs := t.inputs, pub := t.pub })
      ∧ (∀ u, c.fn = brushFn u → armPresent s u = true → (s.arm u).state ≠ .stowed → (s.arm u).state ≠ .fault →
          t.arm u = armFails s u .brushSensor (s.arm u) ∧ (s.loader.station = .operating → ArmAnnounced t u))
      ∧ (∀ u, c.fn = brushFn u → armPresent s u = false ∨ (s.arm u).state = .stowed ∨ (s.arm u).state = .fault →
          t.arm u = s.arm u)
    (∀ e p, c.lastEdge = some e → c.period = some p → c.state = .tracking → 2 * p < window →
      2 * p ≤ interval s.micros e →
      exec (.missingDeadline ch) s = .next
        { s with inputs := { s.inputs with pulse := s.inputs.pulse.set ch { c with state := .oneMissing } } })
    ∧ (∀ e, c.lastEdge = some e → c.state = .tracking ∨ c.state = .oneMissing → limit ≤ interval s.micros e →
      (expectMotion s c.fn = false → exec (.stopDeadline ch) s = .next
        { s with inputs := { s.inputs with pulse := s.inputs.pulse.set ch (quiet .stopped) } })
      ∧ (expectMotion s c.fn = true → goesLost (.stopDeadline ch)))
    ∧ (∀ since, c.state = .stopped → expectMotion s c.fn = true → expectSince s c.fn = some since →
      window ≤ interval s.micros (match c.lastEdge with | some e => max since e | none => since) →
      goesLost (.watchDeadline ch))

/-- A conversion of an assigned input: outside 20–980 it goes OUT_OF_RANGE at once with its run at 0; within, an IN_RANGE
input notes it as its last good reading and an OUT_OF_RANGE one comes back at the hundredth good reading in a row, until when
its last good reading stands (R117, R118). That the reading which brings it back is noted too is the model's inference
(notes/assumptions/30.md), and that the next conversion falls due a millisecond after this one was due is the model's choice
(notes/assumptions/5.md). An entry to OUT_OF_RANGE asks for NOTICE PEDAL_RANGE, with a quarter of the reading, from a PEDAL
(R119, R172, R208). -/
def Obligations.ConversionMovesTheRangeState : Prop :=
  ∀ (s : State) (ai : Fin 4) (reading : Permille), s.loader.station = .joining ∨ s.loader.station = .operating →
    (s.inputs.analog[ai]).fn ≠ .unused → (s.inputs.analog[ai]).due ≤ s.micros / 1000 →
    let a := s.inputs.analog[ai]
    let good := 20 ≤ reading.val ∧ reading.val ≤ 980
    ∃ a' t, exec (.analogConversion ai reading) s = .next t
      ∧ t.inputs = { s.inputs with analog := s.inputs.analog.set ai a' }
      ∧ a'.fn = a.fn ∧ a'.reading = reading.val ∧ a'.due = a.due + 1
      ∧ (¬good → a'.inRange = false ∧ a'.run = 0 ∧ a'.lastGood = a.lastGood)
      ∧ (good → a.inRange = true → a'.inRange = true ∧ a'.lastGood = some reading.val)
      ∧ (good → a.inRange = false → a'.run = a.run + 1 ∧ a'.inRange = decide (100 ≤ a.run + 1)
          ∧ a'.lastGood = if 100 ≤ a.run + 1 then some reading.val else a.lastGood)
      ∧ (a.fn = .tank ∨ a.fn = .rateKnob ∨ (a.fn = .pedal ∧ (a.inRange = false ∨ good)) → t = { s with inputs := t.inputs })
      ∧ (a.fn = .pedal → a.inRange = true → ¬good → t = { s with inputs := t.inputs, pub := t.pub }
          ∧ AskedEvent s .notice (spelled [1, reading.val / 4, 0]) t.pub)

/-- An angle conversion reaches its arm and nothing else but the publication of it. A reading above or below the threshold of
the WAIT_ANGLE step in progress completes it and the list goes on, whatever steps and end it has, and a reading equal to the
threshold does not; an entry to OUT_OF_RANGE puts an active arm in FAULT with ANGLE_RANGE; where the same reading does both,
either comes first; a change of state in OPERATING builds the ARM frame (R55, R119, R134, R136, R139; notes/assumptions/9.md). -/
def Obligations.AngleConversionReachesItsArm : Prop :=
  ∀ (s : State) (ai : Fin 4) (reading : Permille) (u : ArmUnit),
    s.loader.station = .joining ∨ s.loader.station = .operating →
    (s.inputs.analog[ai]).fn = angleFn u → (s.inputs.analog[ai]).due ≤ s.micros / 1000 → armPresent s u = true →
    let a := s.inputs.analog[ai]
    let good := 20 ≤ reading.val ∧ reading.val ≤ 980
    let leaves := a.inRange = true ∧ ¬good
    let active (x : Arm) := x.state ≠ .stowed ∧ x.state ≠ .fault
    ∃ t, exec (.analogConversion ai reading) s = .next t
      ∧ (let now := { s with inputs := t.inputs }
        let fails (x : Arm) := if active x then armFails now u .angleRange x else x
        t = { now.withArm u (t.arm u) with pub := t.pub } ∧ SameEvents s.pub t.pub
        ∧ ((t.arm u).state ≠ (s.arm u).state → s.loader.station = .operating → ArmAnnounced t u)
        ∧ (∀ below threshold, stepInProgress s u = some (.waitAngle below threshold) →
          let met := if below then reading.val < threshold else threshold < reading.val
          (¬leaves → ¬met → t = now)
          ∧ (leaves → ¬met → t.arm u = fails (s.arm u))
          ∧ (¬leaves → met → t.arm u = stepDone now u (s.arm u))
          ∧ (leaves → met → active (s.arm u) → t.arm u = if Config.angleFaultFirst s.micros = true
            then armFails now u .angleRange (s.arm u) else fails (stepDone now u (s.arm u))))
        ∧ ((∀ below threshold, stepInProgress s u ≠ some (.waitAngle below threshold)) →
          (¬leaves → t = now) ∧ (leaves → t.arm u = fails (s.arm u))))
      ∧ (∀ below threshold, good → stepInProgress s u = some (.waitAngle below threshold) →
          (if below then reading.val < threshold else threshold < reading.val) →
          (s.arm u).remaining = 1 → (s.arm u).list = .deploy ∨ (s.arm u).list = .resume →
          (t.arm u).state = .sweeping ∧ (t.arm u).list = .none
          ∧ (t.arm u).loadDue = some (s.micros / 1000 + 500))
      ∧ (a.inRange = true → ¬good → (s.arm u).state ≠ .stowed → (s.arm u).state ≠ .fault →
          ((t.arm u).state = .fault ∧ (t.arm u).cause = .angleRange)
          ∨ (t.arm u).state = .stowed)

/-- A sample of an assigned switch: at the taken level it sets the differing run back to 0, and at the other level the run
grows by a millisecond until the line's level is taken (R120); that the sample which brings the run to 20 takes it is the
model's inference (notes/assumptions/7.md), and that the next sample falls due a millisecond after this one was due its choice
(notes/assumptions/5.md). A taken press or release reaches its duty. A deflect press on an OPERATING station makes a
DEPLOYING, SWEEPING or RESUMING arm yield, cutting its list, and a release sets the deflect-off instant (R127, R130). An arm
button sets its position's request (R174). A RESET press with the pedal at 0 asks all stations for a CLEAR of RELEASE_SAFE and
LATCHES and starts the hold timer, one with the pedal above 0 is ignored, and a release stops the timer (R177). A press of an arm
or RESET button in JOINING is lost (R170), and a deflect press there moves no arm (R125, R130). A mode, direction or HALT switch
reaches no duty yet. -/
def Obligations.SwitchSamplesAreTakenAndHandedOn : Prop :=
  ∀ (s : State) (si : Fin 8), s.loader.station = .joining ∨ s.loader.station = .operating →
    (s.inputs.switches[si]).fn ≠ .unused → (s.inputs.switches[si]).due ≤ s.micros / 1000 →
    let x := s.inputs.switches[si]
    let sampled (level : Bool) (run : Nat) : Inputs :=
      { s.inputs with switches := s.inputs.switches.set si ⟨x.fn, level, run, x.due + 1⟩ }
    (exec (.switchSample si x.level) s = .next { s with inputs := sampled x.level 0 })
    ∧ (x.run + 1 < 20 → exec (.switchSample si (!x.level)) s = .next { s with inputs := sampled x.level (x.run + 1) })
    ∧ (20 ≤ x.run + 1 → ∃ t, exec (.switchSample si (!x.level)) s = .next t ∧ t.inputs = sampled (!x.level) 0
      ∧ (x.fn = .mode1 ∨ x.fn = .mode2 ∨ x.fn = .dir ∨ x.fn = .haltButton → t = { s with inputs := sampled (!x.level) 0 })
      ∧ (x.level = false → s.loader.station = .operating →
        (∀ u, x.fn = deflectFn u → (t.arm u).deflectOff = none
          ∧ ((s.arm u).state = .deploying ∨ (s.arm u).state = .sweeping ∨ (s.arm u).state = .resuming →
            t = { { s with inputs := t.inputs }.withArm u (t.arm u) with pub := t.pub } ∧ SameEvents s.pub t.pub
            ∧ t.arm u = armTakes { s with inputs := t.inputs } u .yield { s.arm u with deflectOff := none }
            ∧ (armPresent s u = true → ArmAnnounced t u)
            ∧ ((t.arm u).state = .yielding ∨ (t.arm u).state = .yielded ∨ (t.arm u).state = .retracting
              ∨ (t.arm u).state = .stowed))
          ∧ ((s.arm u).state = .stowed ∨ (s.arm u).state = .yielding ∨ (s.arm u).state = .yielded
              ∨ (s.arm u).state = .retracting ∨ (s.arm u).state = .fault →
            t.arm u = { s.arm u with deflectOff := none }))
        ∧ (∀ p, x.fn = .deploy p → t = { s with
            inputs := t.inputs, console := { s.console with requests := setRequest s.console.requests p .deploy } })
        ∧ (∀ p, x.fn = .retract p → t = { s with
            inputs := t.inputs, console := { s.console with requests := setRequest s.console.requests p .retract } })
        ∧ (x.fn = .resetButton → s.console.pedal = 0 →
            t = { s with
              inputs := t.inputs, pub := t.pub, console := { s.console with resetHold := some (s.micros / 1000) } }
            ∧ AskedEvent s .clear [15, 3] t.pub)
        ∧ (x.fn = .resetButton → s.console.pedal ≠ 0 → t = { s with inputs := t.inputs }))
      ∧ (x.level = false → s.loader.station = .joining →
        (∀ u, x.fn = deflectFn u →
          t = { s with inputs := t.inputs }.withArm u { s.arm u with deflectOff := none })
        ∧ (∀ p, x.fn = .deploy p ∨ x.fn = .retract p → t = { s with inputs := t.inputs })
        ∧ (x.fn = .resetButton → t = { s with inputs := t.inputs }))
      ∧ (x.level = true →
        (∀ u, x.fn = deflectFn u → t.arm u = { s.arm u with deflectOff := some (s.micros / 1000) })
        ∧ (∀ p, x.fn = .deploy p ∨ x.fn = .retract p → t = { s with inputs := t.inputs })
        ∧ (x.fn = .resetButton →
            t = { s with inputs := t.inputs, console := { s.console with resetHold := none } })))

/-! ## Brush Arms (spec/07) -/

/-- An arm control period is due on a station that carries the unit, in JOINING or OPERATING (R125). -/
def Sys2Proof.Machine.armDue (s : State) (u : ArmUnit) (due : Nat) : Prop :=
  (s.loader.station = .joining ∨ s.loader.station = .operating) ∧ armPresent s u = true ∧ (s.arm u).due = some due
    ∧ due ≤ s.micros / 1000

/-- An arm period reads its inputs and keeps the reverse timer, restarts its own timer, and leaves the other unit, every event
and every other block but the publication of its changes alone. In JOINING it does nothing else. In OPERATING it ends with the
brush formed: at rest while it does not run, and otherwise at its target and its PWM, its trim moved by what the channel
measures and 0 while no channel gives a measurement (R125, R126, R127, R142, R143). -/
def Obligations.ArmPeriodReadsAndFormsTheBrush : Prop :=
  ∀ (s : State) (u : ArmUnit) (due : Nat), armDue s u due →
    ∃ t, exec (.armPeriodExpiry u) s = .next t
      ∧ (∀ w, w ≠ u → t.arm w = s.arm w) ∧ t.drive = s.drive ∧ t.water = s.water ∧ t.console = s.console
      ∧ t.link = s.link ∧ t.picture = s.picture ∧ t.inputs = s.inputs ∧ t.safe = s.safe ∧ t.loader = s.loader
      ∧ t.params = s.params ∧ t.duties = s.duties ∧ t.micros = s.micros ∧ t.pending = s.pending
      ∧ (let a := t.arm u
         let p := armParams s u
         a.due = some (due + 20)
         ∧ (a.inputs.heard = true ↔ ∃ r, operatorRecord s = some r)
         ∧ (∀ r, operatorRecord s = some r → a.inputs.mode = modeOfCode (byteAt r.payload 0)
             ∧ a.inputs.request = armRequestOfCode (byteAt r.payload 4 / 4 ^ (3 - positionCode p.position) % 4))
         ∧ (∀ r, travelRecord s = some r → a.inputs.vt = min 6000 (wordAt r.payload 0)
             ∧ a.inputs.direction = directionOfCode (byteAt r.payload 4))
         ∧ (travelRecord s = none → a.inputs.vt = 0 ∧ a.inputs.direction = none)
         ∧ (a.inputs.direction = some .reverse → a.reverse = some ((s.arm u).reverse.getD due))
         ∧ (a.inputs.direction ≠ some .reverse → a.reverse = none)
         ∧ (s.loader.station = .joining → t.pub = s.pub
             ∧ a = { s.arm u with inputs := a.inputs, reverse := a.reverse, due := a.due })
         ∧ (s.loader.station = .operating → SameEvents s.pub t.pub
             ∧ (brushRuns a = false → a.target = 0 ∧ a.trim = 0 ∧ a.pwm = 0)
             ∧ (brushRuns a = true → a.target = min p.maxRpm (p.baseRpm + a.inputs.vt * p.slope / 1000)
               ∧ (a.pwm : Int) = max 0 (min 1000 (((a.target * p.kb / 1000 : Nat) : Int) + a.trim))
               ∧ -150 ≤ a.trim ∧ a.trim ≤ 150
               ∧ (fnState s (brushFn u) = none ∨ fnState s (brushFn u) = some .lost → a.trim = 0)
               ∧ (∀ c, fnState s (brushFn u) = some c → c ≠ .lost → armTurns (s.arm u) = true →
                 (s.arm u).list = .none → a.state = (s.arm u).state → a.trim = max (-150) (min 150
                   ((s.arm u).trim + Int.tdiv (((a.target : Int) - fnValue s (brushFn u)) * p.kt) 256))))))

/-- An OPERATING period takes the arm, its inputs and reverse timer read, through its six steps: a WAIT_DIST, WAIT_WATER or
WAIT_BRUSH in progress checked for completion; FAULT with ANGLE_RANGE when the angle input is OUT_OF_RANGE; at most one
transition, from rest or cutting a running list; the brush; and at each change of state the claim and an ARM frame, which
carries the arm as it stands before the brush step (R55, R125–R137, R139, R142, R143, R145, R147). No event is asked for. For an
arm at rest with its angle input in range: STOWED deploys on the deploy condition with L at 100; SWEEPING retracts, or else
yields, on its condition; YIELDED retracts, or else resumes, on its condition; FAULT stays; a list that is done at once takes
the arm on to its end state (R126, R127, R128, R129, R131, R134). -/
def Obligations.ArmStateFollowsItsTable : Prop :=
  ∀ (s : State) (u : ArmUnit) (due : Nat), armDue s u due → s.loader.station = .operating →
    ∃ t, exec (.armPeriodExpiry u) s = .next t
      ∧ (let read := { s.arm u with inputs := (t.arm u).inputs, reverse := (t.arm u).reverse, due := some (due + 20) }
         let evaluated := armEvaluated s u due (armAngled s u (armChecked s u read))
         t = { s.withArm u (t.arm u) with pub := t.pub } ∧ SameEvents s.pub t.pub
         ∧ t.arm u = armBrushed s u evaluated
         ∧ (evaluated.state ≠ (s.arm u).state → ArmAnnounced (t.withArm u evaluated) u))
      ∧ ((s.arm u).list = .none → angleInRange s.inputs u = true →
         let old := s.arm u
         let new := t.arm u
         let i := new.inputs
         let deploys := i.heard = true ∧ i.mode = .sweep ∧ i.request = .deploy ∧ isSafe s = false
         let retracts := i.heard = false ∨ i.mode ≠ .sweep ∨ i.request = .retract
         let yields := switchOn s.inputs (deflectFn u) = true ∨ ∃ start, new.reverse = some start ∧ start + 300 ≤ due
         let clear := switchOn s.inputs (deflectFn u) = false ∧ (∃ off, old.deflectOff = some off
           ∧ off + 1000 ≤ s.micros / 1000) ∧ i.direction = some .forward
         (old.state = .stowed → (deploys → (new.state = .deploying ∨ new.state = .sweeping) ∧ new.load = 100)
           ∧ (¬deploys → new.state = .stowed ∧ new.load = old.load))
         ∧ (old.state = .sweeping → (retracts → new.state = .retracting ∨ new.state = .stowed)
           ∧ (¬retracts → yields → new.state = .yielding ∨ new.state = .yielded)
           ∧ (¬retracts → ¬yields → new.state = .sweeping) ∧ new.load = old.load)
         ∧ (old.state = .yielded → (retracts → new.state = .retracting ∨ new.state = .stowed)
           ∧ (¬retracts → clear → new.state = .resuming ∨ new.state = .sweeping)
           ∧ (¬retracts → ¬clear → new.state = .yielded) ∧ new.load = old.load)
         ∧ (old.state = .fault → new.state = .fault ∧ new.cause = old.cause ∧ new.levels = old.levels))

/-- A WAIT_TIME step that has run its units completes and the list goes on at that instant, through its VALVE and BRUSH steps,
to a wait step not yet met or to its end and the state that follows it, with an ARM frame asked for at a change of state;
before then, and with no WAIT_TIME in progress, the command does nothing (R55, R129, R131, R132, R134–R138). So its VALVE
steps set their lines in order, and it comes to rest at an angle wait not yet met, with its deadline, or at its end in
SWEEPING (DEPLOY, RESUME) or STOWED (RETRACT). -/
def Obligations.WaitTimeRunsTheListOn : Prop :=
  ∀ (s : State) (u : ArmUnit), armPresent s u = true →
    (∀ units start, stepInProgress s u = some (.waitTime units) → (s.arm u).record = .time start →
      (s.micros / 1000 < start + units * 50 → exec (.waitTimeComplete u) s = .next s)
      ∧ (start + units * 50 ≤ s.micros / 1000 →
        ∃ t, exec (.waitTimeComplete u) s = .next t ∧ t = { s.withArm u (stepDone s u (s.arm u)) with pub := t.pub }
          ∧ SameEvents s.pub t.pub
          ∧ ((t.arm u).state ≠ (s.arm u).state → s.loader.station = .operating → ArmAnnounced t u)))
    ∧ ((∀ units, stepInProgress s u ≠ some (.waitTime units)) → exec (.waitTimeComplete u) s = .next s)
    ∧ ∀ (units start : Nat) (valves : List (Fin 4 × Bool)) (rest : List Step),
      ArmBounded (armParams s u) (s.arm u) → (s.arm u).record = .time start → start + units * 50 ≤ s.micros / 1000 →
      stepsLeft (armParams s u) (s.arm u) = .waitTime units :: (valves.map fun v => Step.valve v.1 v.2) ++ rest →
      let levels := valves.foldl (fun (l : Vector Bool 4) v => l.set v.1 v.2) (s.arm u).levels
      (∀ below threshold more, rest = .waitAngle below threshold :: more →
        (if below then threshold ≤ angleValue s.inputs u else angleValue s.inputs u ≤ threshold) →
        exec (.waitTimeComplete u) s = .next (s.withArm u { s.arm u with
          levels := levels
          remaining := (s.arm u).remaining - 1 - valves.length
          record := .none
          deadline := some (s.micros / 1000 + (armParams s u).stepTimeout * 100) }))
      ∧ (rest = [] → (s.arm u).list ≠ .yield → ∃ t, exec (.waitTimeComplete u) s = .next t
        ∧ (t.arm u).list = .none ∧ (t.arm u).levels = levels
        ∧ ((s.arm u).list = .deploy ∨ (s.arm u).list = .resume → (t.arm u).state = .sweeping
          ∧ (t.arm u).loadDue = some (s.micros / 1000 + 500))
        ∧ ((s.arm u).list = .retract → (t.arm u).state = .stowed ∧ (t.arm u).engaged = false))

/-- A step deadline that passes puts an arm that is not STOWED and not in FAULT in FAULT with STEP_TIMEOUT: the list
abandoned, the lines at the hold set, the brush disengaged and at rest, L kept, the claim 0 PROMPT ARM_FAULT or the SAFE
claim, with an ARM frame and, at a rise of urgency, a PACE in OPERATING; nothing else moves, and before the deadline the command
does nothing (R55, R68, R70, R138, R140, R145). -/
def Obligations.StepDeadlineFailsTheArm : Prop :=
  ∀ (s : State) (u : ArmUnit) (deadline : Nat), armPresent s u = true → (s.arm u).deadline = some deadline →
    (s.micros / 1000 < deadline → exec (.stepDeadline u) s = .next s)
    ∧ (deadline ≤ s.micros / 1000 → (s.arm u).state ≠ .stowed → (s.arm u).state ≠ .fault →
      ∃ t, exec (.stepDeadline u) s = .next t ∧ t = { s.withArm u (t.arm u) with pub := t.pub } ∧ SameEvents s.pub t.pub
        ∧ PaceRises s t ∧ (s.loader.station = .operating → ArmAnnounced t u)
        ∧ t.arm u = { s.arm u with
            state := .fault
            cause := .stepTimeout
            list := .none
            remaining := 0
            deadline := none
            record := .none
            engaged := false
            brushOnRun := false
            target := 0
            trim := 0
            pwm := 0
            loadDue := none
            expectSince := none
            levels := holdLevels s.safe.hold (armParams s u)
            claim := some (if isSafe s = true then ⟨0, .stop, .stationSafe⟩ else ⟨0, .prompt, .armFault⟩) })

/-- A load window of a SWEEPING arm: with a channel not LOST, L falls by 10 to no less than 40 below 85 percent of the target
and rises by 5 to no more than 100 at 95 percent; otherwise it stays; the window restarts; a change of L re-forms the claim
from the static ceiling, and a rise of the combined urgency builds PACE at once; nothing else moves (R55, R68, R70, R123, R144,
R145). -/
def Obligations.LoadWindowMovesTheLoadFactor : Prop :=
  ∀ (s : State) (u : ArmUnit) (due : Nat), armPresent s u = true → (s.arm u).state = .sweeping →
    (s.arm u).loadDue = some due → due ≤ s.micros / 1000 →
    let a := s.arm u
    let p := armParams s u
    let measured := fnValue s (brushFn u)
    let counts := ∃ c, fnState s (brushFn u) = some c ∧ c ≠ .lost
    let ceiling := if p.slope = 0 then 6000 else min 6000 ((p.maxRpm - p.baseRpm) * 1000 / p.slope)
    ∃ t, exec (.loadWindowExpiry u) s = .next t
      ∧ (t.arm u).loadDue = some (due + 500)
      ∧ (counts → measured * 100 < a.target * 85 → (t.arm u).load = max 40 (a.load - 10))
      ∧ (counts → a.target * 85 ≤ measured * 100 → a.target * 95 ≤ measured * 100 →
          (t.arm u).load = min 100 (a.load + 5))
      ∧ (counts → a.target * 85 ≤ measured * 100 → measured * 100 < a.target * 95 → (t.arm u).load = a.load)
      ∧ (¬counts → (t.arm u).load = a.load)
      ∧ t = { s.withArm u (t.arm u) with pub := t.pub } ∧ SameEvents s.pub t.pub
      ∧ t.arm u = { a with load := (t.arm u).load, loadDue := some (due + 500), claim := (t.arm u).claim }
      ∧ ((t.arm u).load = a.load → t = s.withArm u (t.arm u))
      ∧ ((t.arm u).load ≠ a.load → isSafe s = false → (t.arm u).claim = some ⟨ceiling * (t.arm u).load / 100, .normal,
          if (t.arm u).load = 100 then .brushCapacity else .brushLoad⟩)
      ∧ ((t.arm u).load ≠ a.load → isSafe s = true → (t.arm u).claim = some ⟨0, .stop, .stationSafe⟩)
      ∧ ((t.arm u).load ≠ a.load → ClaimPublished (s.withArm u (t.arm u)) t.pub)

/-! ## Water Metering (spec/08) -/

/-- A water control period is due on a station that carries the duty, in JOINING or OPERATING (R150). -/
def Sys2Proof.Machine.waterDue (s : State) (due : Nat) : Prop :=
  (s.loader.station = .joining ∨ s.loader.station = .operating) ∧ s.duties.water = true ∧ s.water.due = some due
    ∧ due ≤ s.micros / 1000

/-- What a water period computes: rate, width, speed and the active condition from the slots; the dry flag and the tank-low
state with their hysteresis; and, in the state its transition left, setpoint, saturated, trim, pump duty, spray valves and the
capacity claim, all at rest outside PRIMING and SPRAYING; and the NOTICE TANK_LOW, with a quarter of the tank level, of a fall
below the low mark. A rise of the combined urgency builds PACE at once (R55, R68, R70, R150–R155, R162–R164, R166, R167, R208). -/
def Obligations.WaterPeriodMetersTheFlow : Prop :=
  ∀ (s : State) (due : Nat), waterDue s due →
    ∃ t, exec .waterPeriodExpiry s = .next t ∧ t = { s with water := t.water, pub := t.pub }
      ∧ (let p := s.params.water
         let old := s.water
         let w := t.water
         let flow := fnValue s .flow
         let rounded := (w.rate * w.width * w.speed + 500000) / 1000000
         w.due = some (due + 20)
         ∧ (∀ r, operatorRecord s = some r → w.rate = min p.rateMax (wordAt r.payload 5))
         ∧ (operatorRecord s = none → w.rate = 0)
         ∧ (∀ r, travelRecord s = some r → w.speed = min 6000 (wordAt r.payload 0))
         ∧ (travelRecord s = none → w.speed = 0)
         ∧ w.width = min 6000 (((slotNumbers.filter fun n => slotLabel s.picture n == some .armIn).map
             (slotWidth s.picture)).sum)
         ∧ (∀ n : Fin 32, (∀ r, (s.picture.slots[n]).record = some r → r.age ≠ .lost →
               headerTopic r.header = 5 ∨ headerTopic r.header = 6 → slotWidth s.picture n = min 3000 (wordAt r.payload 4))
             ∧ ((∀ r, (s.picture.slots[n]).record = some r → r.age = .lost
                 ∨ (headerTopic r.header ≠ 5 ∧ headerTopic r.header ≠ 6)) → slotWidth s.picture n = 0))
         ∧ (w.active = true ↔ (∃ r, operatorRecord s = some r ∧ byteAt r.payload 0 = 2) ∧ 0 < w.rate ∧ 0 < w.width
             ∧ travelRecord s ≠ none ∧ isSafe s = false)
         ∧ w.tank = tankValue s.inputs
         ∧ w.dry = (if old.dry = true then decide (w.tank ≤ p.emptyMark + 50) else decide (w.tank < p.emptyMark))
         ∧ w.tankBelow = (if old.tankBelow = true then decide (w.tank < p.lowMark + 50) else decide (w.tank < p.lowMark))
         ∧ (w.state = .priming ∨ w.state = .spraying →
             w.q = min p.qMax rounded ∧ w.saturated = decide (p.qMax < rounded)
             ∧ (w.pump : Int) = max 0 (min 1000 (((w.q * p.kw / 1000 : Nat) : Int) + w.trim))
             ∧ (fnState s .flow = none ∨ fnState s .flow = some .lost → w.trim = 0)
             ∧ (w.state = old.state → fnState s .flow = some .tracking → w.trim =
                 max (-200) (min 200 (old.trim + Int.tdiv (((w.q : Int) - flow) * p.kq) 256)))
             ∧ (w.state = old.state → fnState s .flow = some .oneMissing ∨ fnState s .flow = some .stopped →
                 w.trim = old.trim)
             ∧ (∀ i : Fin 4, (p.sprays[i]).line ≠ none → (w.valves[i] = true ↔ match (p.sprays[i]).tie with
                 | .always => True
                 | .arm station unit => ∃ n, TiedSlot s.picture station unit n ∧ 0 < slotWidth s.picture n)))
         ∧ (w.state ≠ .priming → w.state ≠ .spraying →
             w.q = 0 ∧ w.saturated = false ∧ w.trim = 0 ∧ w.pump = 0 ∧ ∀ i : Fin 4, w.valves[i] = false)
         ∧ w.claim = some (if isSafe s = true then ⟨0, .stop, .stationSafe⟩
             else if w.active = true ∧ w.dry = false then
               ⟨min 6000 (p.qMax * 1000000 / (w.rate * w.width)), .normal, .waterCapacity⟩
             else if w.dry = true ∧ p.dryForbidden = true then ⟨0, .prompt, .tankEmpty⟩
             else ⟨6000, .normal, .none⟩)
         ∧ PaceRises s t
         ∧ (old.tankBelow = false → w.tankBelow = true → AsksEvent s .notice (spelled [0, w.tank / 4, 0]) t.pub)
         ∧ (old.tankBelow = true ∨ w.tankBelow = false → SameEvents s.pub t.pub))

/-- At most one transition a period, none in JOINING: DRY on the dry flag from any state and OFF when it goes; OFF to PRIMING at
the spray minimum; PRIMING to OFF, SPRAYING or FAULT by flow and time; SPRAYING and IDLE by speed; all three to OFF when not
active; FAULT stays (R150, R156, R157, R158, R159, R160). A change of state builds WATER at once (R55). The priming start is
this expiry on entry, kept while PRIMING lasts, and none when it is left (R157). -/
def Obligations.WaterStateFollowsItsTable : Prop :=
  ∀ (s : State) (due : Nat), waterDue s due →
    ∃ t, exec .waterPeriodExpiry s = .next t
      ∧ (let p := s.params.water
         let old := s.water
         let w := t.water
         let meter := ∃ c, fnState s .flow = some c ∧ c ≠ .lost
         let half := old.q ≤ fnValue s .flow * 2
         let primed (ms : Nat) := ∃ start, old.priming = some start ∧ start + ms ≤ due
         (w.state ≠ old.state → Announced t .water)
         ∧ (w.state = old.state → t.pub.nextSeq[topicIndex .water] = s.pub.nextSeq[topicIndex .water]
             ∧ t.pub.timers[cyclicIndex .water] = s.pub.timers[cyclicIndex .water])
         ∧ (s.loader.station = .joining → w.state = old.state)
         ∧ (s.loader.station = .operating →
           (w.dry = true → w.state = .dry ∧ (old.state = .priming → w.priming = none))
           ∧ (w.dry = false →
             (old.state = .dry → w.state = .off)
             ∧ (old.state = .off → w.active = true → p.sprayMin ≤ w.speed → w.state = .priming ∧ w.priming = some due)
             ∧ (old.state = .off → w.active = false ∨ w.speed < p.sprayMin → w.state = .off)
             ∧ (old.state = .priming → w.active = false → w.state = .off ∧ w.priming = none)
             ∧ (old.state = .priming → w.active = true → meter → half → w.state = .spraying ∧ w.priming = none)
             ∧ (old.state = .priming → w.active = true → meter → ¬half → primed 5000 → w.state = .fault ∧ w.priming = none)
             ∧ (old.state = .priming → w.active = true → meter → ¬half → ¬primed 5000 →
                 w.state = .priming ∧ w.priming = old.priming)
             ∧ (old.state = .priming → w.active = true → ¬meter → primed (p.primeTime * 100) →
                 w.state = .spraying ∧ w.priming = none)
             ∧ (old.state = .priming → w.active = true → ¬meter → ¬primed (p.primeTime * 100) →
                 w.state = .priming ∧ w.priming = old.priming)
             ∧ (old.state = .spraying ∨ old.state = .idle → w.active = false → w.state = .off)
             ∧ (old.state = .spraying ∨ old.state = .idle → w.active = true → w.speed < p.sprayMin → w.state = .idle)
             ∧ (old.state = .spraying ∨ old.state = .idle → w.active = true → p.sprayMin ≤ w.speed → w.state = .spraying)
             ∧ (old.state = .fault → w.state = .fault))))

/-! ## Console Duty (spec/09) -/

/-- A console period forms mode, mode invalid, direction, pedal and rate from the taken levels and the readings, and sets every
request to RETRACT when the mode moves away from SWEEP; in OPERATING a pressed HALT button is a cause, which makes the SAFE
entry of SafeEntered on a station not SAFE (R184), and a reset hold timer past 2000 ms ends. The events asked for are, in order,
the NOTICE of a mode newly invalid, the HALT of a button cause newly held, and the CLEAR of the arms of a reset hold that ends
with the pedal at 0 (R170, R171, R172, R173, R174, R176, R177, R185, R208); the pedal taken is that of this period, which is the
model's choice (notes/assumptions/29.md). -/
def Obligations.ConsolePeriodFormsTheReadings : Prop :=
  ∀ (s : State) (due : Nat), s.loader.station = .joining ∨ s.loader.station = .operating → s.duties.console = true →
    s.console.due = some due → due ≤ s.micros / 1000 → HeaderOrder s.pub.list →
    ∃ t, exec .consolePeriodExpiry s = .next t
      ∧ (let one := switchOn s.inputs .mode1
         let two := switchOn s.inputs .mode2
         let band := s.params.console.deadband
         let c := t.console
         c.due = some (due + 20)
         ∧ c.mode = (if one = two then .park else if one = true then .transport else .sweep)
         ∧ c.modeInvalid = (one && two)
         ∧ c.direction = (if switchOn s.inputs .dir = true then .reverse else .forward)
         ∧ c.pedal = (if pedalValue s.inputs ≤ band then 0 else (pedalValue s.inputs - band) * 1000 / (1000 - band))
         ∧ c.rate = (knobValue s.inputs * s.params.console.rateMax + 5000) / 10000 * 10
         ∧ c.requests = (if s.console.mode = .sweep ∧ c.mode ≠ .sweep then ⟨.retract, .retract, .retract, .retract⟩
             else s.console.requests)
         ∧ c.lampDeadline = s.console.lampDeadline
         ∧ (s.loader.station = .joining → t = { s with console := c, pub := t.pub } ∧ c.resetHold = s.console.resetHold)
         ∧ (s.loader.station = .operating →
             (haltPressed s = true → t.safe = { s.safe with causes := { s.safe.causes with haltButton := true } })
             ∧ (haltPressed s = true → isSafe s = false →
                 SafeEntered { s with console := { c with claim := s.console.claim } } t)
             ∧ (haltPressed s = true → isSafe s = true → t = { s with console := c, pub := t.pub, safe := t.safe })
             ∧ (haltPressed s = false → t = { s with console := c, pub := t.pub }))
         ∧ t.params = s.params ∧ t.duties = s.duties ∧ t.held = s.held ∧ t.micros = s.micros ∧ t.pending = s.pending
         ∧ (s.loader.station = .operating → c.resetHold =
             if switchOn s.inputs .resetButton = true ∧ (∃ start ∈ s.console.resetHold.toList, start + 2000 ≤ s.micros / 1000)
             then none else s.console.resetHold)
         ∧ (∃ p q r : Publication,
             (if c.modeInvalid = true ∧ s.console.modeInvalid = false then AskedEvent s .notice [2, 0, 0] p else p = s.pub)
             ∧ (if s.loader.station = .operating ∧ haltPressed s = true ∧ s.safe.causes.haltButton = false
               then AskedEvent { s with pub := p } .halt [0, 4] q else q = p)
             ∧ (if s.console.resetHold ≠ c.resetHold ∧ c.pedal = 0
               then AskedEvent { s with pub := q } .clear [15, 12] r else r = q)
             ∧ SameEvents r t.pub)
         ∧ t.link = s.link ∧ t.picture = s.picture ∧ t.inputs = s.inputs ∧ t.loader = s.loader)

/-- The reset hold timer at 2000 ms with RESET_BUTTON on stops, and with the pedal at 0 asks for a CLEAR of ARM_A and ARM_B to
all stations, in any station state; before that its expiry does nothing (R48, R56, R177). The lamp deadline, when reached,
becomes none (R178). -/
def Obligations.ConsoleTimersExpire : Prop :=
  ∀ s : State,
    (∀ start, s.console.resetHold = some start → switchOn s.inputs .resetButton = true →
      start + 2000 ≤ s.micros / 1000 →
      (s.console.pedal ≠ 0 → exec .resetHoldTimerExpiry s = .next { s with console := { s.console with resetHold := none } })
      ∧ (s.console.pedal = 0 → ∃ p, AskedEvent s .clear [15, 12] p ∧ exec .resetHoldTimerExpiry s = .next
        { s with console := { s.console with resetHold := none }, pub := p })
      ∧ (s.console.pedal = 0 → s.loader.station = .operating → placesTaken s < 4 → HeaderOrder s.pub.list →
        ∃ l, PlacedBehind ⟨.event, topicHeader .clear s.loader.address, s.pub.nextSeq[topicIndex .clear], [15, 12],
            some (s.micros / 1000)⟩ s.pub.list l
          ∧ exec .resetHoldTimerExpiry s = .next
            { s with
              console := { s.console with resetHold := none }
              pub := { s.pub with
                list := l
                nextSeq := s.pub.nextSeq.set (topicIndex .clear) (s.pub.nextSeq[topicIndex .clear] + 1) } }))
    ∧ (∀ start, s.console.resetHold = some start → s.micros / 1000 < start + 2000 →
        exec .resetHoldTimerExpiry s = .next s)
    ∧ (∀ deadline, s.console.lampDeadline = some deadline → deadline ≤ s.micros / 1000 →
        exec .lampDeadline s = .next { s with console := { s.console with lampDeadline := none } })
    ∧ (∀ deadline, s.console.lampDeadline = some deadline → s.micros / 1000 < deadline → exec .lampDeadline s = .next s)

/-! ## What every step keeps -/

/-- Every step keeps the transmit list as R53 has it: in header order, one pending entry at most for each cyclic topic
published, at most four event places taken counting one in hand, and in CONFIGURING, JOINING and CONFIG_FAULT only what R59
allows (R38, R53, R57, R58, R59, R60). -/
def Obligations.TransmitListStaysOrdered : Prop :=
  ∀ s t : State, TransmitListOrdered s → step s = .next t → TransmitListOrdered t

/-- Every step keeps the link consistent: the tally at most 135 and below 128 outside MUTE, the MUTE timer running exactly in
MUTE, a transmitter that works only in ON with a frame in hand, and the link at rest in CONFIGURING (R35, R36, R39, R41, R42,
R45). -/
def Obligations.LinkStaysConsistent : Prop := ∀ s t : State, LinkConsistent s → step s = .next t → LinkConsistent t

/-- Every step keeps both arm units within their bounds: at most one list, run only in its state and no longer than the image
has it; a brush target never above the maximum rpm and 0 while the brush does not run; L within 40–100; a cause exactly in
FAULT (R133, R140, R141, R142, R143, R144). That absent duties stand at their reset values is itself kept
(CarriedFramesAndQueuesStayWhole). -/
def Obligations.ArmsStayBounded : Prop :=
  ∀ s t : State, CarriedDutiesOnly s → (∀ u, ArmBounded (armParams s u) (s.arm u)) → step s = .next t →
    ∀ u, ArmBounded (armParams t u) (t.arm u)

/-- Every step keeps a SAFE station standing still: every arm STOWED or in FAULT, the drive neither RUNNING nor STANDING, the
water without flow; and a joining station with the drive PARKED, the water OFF and every arm STOWED or in FAULT (R90, R125,
R128, R140, R150, R161, R184). -/
def Obligations.SafeAndJoiningStationsStandStill : Prop :=
  ∀ s t : State, CarriedDutiesOnly s → (∀ u, ArmBounded (armParams s u) (s.arm u)) → JoiningStill s → SafeStill s →
    step s = .next t → JoiningStill t ∧ SafeStill t

/-- Every step keeps the drive within its bounds: V at most the mode maximum for its direction, D within 0–1000, A1 within its
limit, everything at rest outside RUNNING and HALTING, and the brake released exactly in those two (R94, R96, R97, R99, R100,
R102). -/
def Obligations.DriveStaysBounded : Prop :=
  ∀ s t : State, CarriedDutiesOnly s → DriveBounded s.params.drive s.drive → step s = .next t →
    DriveBounded t.params.drive t.drive

/-- Every step keeps the water duty within its bounds: the setpoint at most Qmax and 0 unless PRIMING or SPRAYING, the pump
and the valves with it, the priming start exactly in PRIMING, and rate × width × ceiling at most Qmax × 1,000,000 for a claim
with reason WATER_CAPACITY (R157, R161, R162, R163, R164, R167). -/
def Obligations.WaterStaysBounded : Prop :=
  ∀ s t : State, CarriedDutiesOnly s → JoiningStill s → WaterBounded s.params.water s.water → step s = .next t →
    WaterBounded t.params.water t.water

/-- Every step keeps a claim held by every duty carried and, while SAFE, the claim 0, STOP, STATION_SAFE (R65, R68). -/
def Obligations.ClaimsStayHeld : Prop := ∀ s t : State, ClaimsHeld s → step s = .next t → ClaimsHeld t

/-- Every step keeps every frame held in the part as long as its header declares, slots at its first twelve bytes, the queues
within their bounds, and the duties not carried at their reset values (R3, R9, R12, R17, R21, R32, R33, R59, R106, R148, R169,
R200). -/
def Obligations.CarriedFramesAndQueuesStayWhole : Prop :=
  ∀ s t : State, step s = .next t →
    (FramesWhole s → FramesWhole t) ∧ (QueuesBounded s → QueuesBounded t) ∧ (CarriedDutiesOnly s → CarriedDutiesOnly t)
end

