-- ==== Sys2Proof/Laws/State.lean ====
section
/-! SUPPORT. One lemma for each field under each update of a block, and what the accessors over the whole state read under
each update, so that no later proof unfolds a record update. -/

namespace Sys2Proof.Machine

variable {s : State}

/-! ### `withLoader` -/

@[simp] theorem State.withLoader_held (x : Loader) : (s.withLoader x).held = s.held := rfl
@[simp] theorem State.withLoader_micros (x : Loader) : (s.withLoader x).micros = s.micros := rfl
@[simp] theorem State.withLoader_loader (x : Loader) : (s.withLoader x).loader = x := rfl
@[simp] theorem State.withLoader_duties (x : Loader) : (s.withLoader x).duties = s.duties := rfl
@[simp] theorem State.withLoader_params (x : Loader) : (s.withLoader x).params = s.params := rfl
@[simp] theorem State.withLoader_link (x : Loader) : (s.withLoader x).link = s.link := rfl
@[simp] theorem State.withLoader_picture (x : Loader) : (s.withLoader x).picture = s.picture := rfl
@[simp] theorem State.withLoader_pub (x : Loader) : (s.withLoader x).pub = s.pub := rfl
@[simp] theorem State.withLoader_inputs (x : Loader) : (s.withLoader x).inputs = s.inputs := rfl
@[simp] theorem State.withLoader_drive (x : Loader) : (s.withLoader x).drive = s.drive := rfl
@[simp] theorem State.withLoader_armA (x : Loader) : (s.withLoader x).armA = s.armA := rfl
@[simp] theorem State.withLoader_armB (x : Loader) : (s.withLoader x).armB = s.armB := rfl
@[simp] theorem State.withLoader_water (x : Loader) : (s.withLoader x).water = s.water := rfl
@[simp] theorem State.withLoader_console (x : Loader) : (s.withLoader x).console = s.console := rfl
@[simp] theorem State.withLoader_safe (x : Loader) : (s.withLoader x).safe = s.safe := rfl
@[simp] theorem State.withLoader_pending (x : Loader) : (s.withLoader x).pending = s.pending := rfl
@[simp] theorem State.withLoader_arm (x : Loader) (v : ArmUnit) : (s.withLoader x).arm v = s.arm v := by cases v <;> rfl
@[simp] theorem ms_withLoader (x : Loader) : ms (s.withLoader x) = ms s := rfl
@[simp] theorem isSafe_withLoader (x : Loader) : isSafe (s.withLoader x) = isSafe s := rfl
@[simp] theorem armPresent_withLoader (x : Loader) (v : ArmUnit) : armPresent (s.withLoader x) v = armPresent s v := by cases v <;> rfl
@[simp] theorem armParams_withLoader (x : Loader) (v : ArmUnit) : armParams (s.withLoader x) v = armParams s v := by cases v <;> rfl

/-! ### `withLink` -/

@[simp] theorem State.withLink_held (x : Link) : (s.withLink x).held = s.held := rfl
@[simp] theorem State.withLink_micros (x : Link) : (s.withLink x).micros = s.micros := rfl
@[simp] theorem State.withLink_loader (x : Link) : (s.withLink x).loader = s.loader := rfl
@[simp] theorem State.withLink_duties (x : Link) : (s.withLink x).duties = s.duties := rfl
@[simp] theorem State.withLink_params (x : Link) : (s.withLink x).params = s.params := rfl
@[simp] theorem State.withLink_link (x : Link) : (s.withLink x).link = x := rfl
@[simp] theorem State.withLink_picture (x : Link) : (s.withLink x).picture = s.picture := rfl
@[simp] theorem State.withLink_pub (x : Link) : (s.withLink x).pub = s.pub := rfl
@[simp] theorem State.withLink_inputs (x : Link) : (s.withLink x).inputs = s.inputs := rfl
@[simp] theorem State.withLink_drive (x : Link) : (s.withLink x).drive = s.drive := rfl
@[simp] theorem State.withLink_armA (x : Link) : (s.withLink x).armA = s.armA := rfl
@[simp] theorem State.withLink_armB (x : Link) : (s.withLink x).armB = s.armB := rfl
@[simp] theorem State.withLink_water (x : Link) : (s.withLink x).water = s.water := rfl
@[simp] theorem State.withLink_console (x : Link) : (s.withLink x).console = s.console := rfl
@[simp] theorem State.withLink_safe (x : Link) : (s.withLink x).safe = s.safe := rfl
@[simp] theorem State.withLink_pending (x : Link) : (s.withLink x).pending = s.pending := rfl
@[simp] theorem State.withLink_arm (x : Link) (v : ArmUnit) : (s.withLink x).arm v = s.arm v := by cases v <;> rfl
@[simp] theorem ms_withLink (x : Link) : ms (s.withLink x) = ms s := rfl
@[simp] theorem dutiesRun_withLink (x : Link) : dutiesRun (s.withLink x) = dutiesRun s := rfl
@[simp] theorem operating_withLink (x : Link) : operating (s.withLink x) = operating s := rfl
@[simp] theorem isSafe_withLink (x : Link) : isSafe (s.withLink x) = isSafe s := rfl
@[simp] theorem armPresent_withLink (x : Link) (v : ArmUnit) : armPresent (s.withLink x) v = armPresent s v := by cases v <;> rfl
@[simp] theorem armParams_withLink (x : Link) (v : ArmUnit) : armParams (s.withLink x) v = armParams s v := by cases v <;> rfl

/-! ### `withPicture` -/

@[simp] theorem State.withPicture_held (x : Picture) : (s.withPicture x).held = s.held := rfl
@[simp] theorem State.withPicture_micros (x : Picture) : (s.withPicture x).micros = s.micros := rfl
@[simp] theorem State.withPicture_loader (x : Picture) : (s.withPicture x).loader = s.loader := rfl
@[simp] theorem State.withPicture_duties (x : Picture) : (s.withPicture x).duties = s.duties := rfl
@[simp] theorem State.withPicture_params (x : Picture) : (s.withPicture x).params = s.params := rfl
@[simp] theorem State.withPicture_link (x : Picture) : (s.withPicture x).link = s.link := rfl
@[simp] theorem State.withPicture_picture (x : Picture) : (s.withPicture x).picture = x := rfl
@[simp] theorem State.withPicture_pub (x : Picture) : (s.withPicture x).pub = s.pub := rfl
@[simp] theorem State.withPicture_inputs (x : Picture) : (s.withPicture x).inputs = s.inputs := rfl
@[simp] theorem State.withPicture_drive (x : Picture) : (s.withPicture x).drive = s.drive := rfl
@[simp] theorem State.withPicture_armA (x : Picture) : (s.withPicture x).armA = s.armA := rfl
@[simp] theorem State.withPicture_armB (x : Picture) : (s.withPicture x).armB = s.armB := rfl
@[simp] theorem State.withPicture_water (x : Picture) : (s.withPicture x).water = s.water := rfl
@[simp] theorem State.withPicture_console (x : Picture) : (s.withPicture x).console = s.console := rfl
@[simp] theorem State.withPicture_safe (x : Picture) : (s.withPicture x).safe = s.safe := rfl
@[simp] theorem State.withPicture_pending (x : Picture) : (s.withPicture x).pending = s.pending := rfl
@[simp] theorem State.withPicture_arm (x : Picture) (v : ArmUnit) : (s.withPicture x).arm v = s.arm v := by cases v <;> rfl
@[simp] theorem ms_withPicture (x : Picture) : ms (s.withPicture x) = ms s := rfl
@[simp] theorem dutiesRun_withPicture (x : Picture) : dutiesRun (s.withPicture x) = dutiesRun s := rfl
@[simp] theorem operating_withPicture (x : Picture) : operating (s.withPicture x) = operating s := rfl
@[simp] theorem isSafe_withPicture (x : Picture) : isSafe (s.withPicture x) = isSafe s := rfl
@[simp] theorem armPresent_withPicture (x : Picture) (v : ArmUnit) : armPresent (s.withPicture x) v = armPresent s v := by cases v <;> rfl
@[simp] theorem armParams_withPicture (x : Picture) (v : ArmUnit) : armParams (s.withPicture x) v = armParams s v := by cases v <;> rfl

/-! ### `withPub` -/

@[simp] theorem State.withPub_held (x : Publication) : (s.withPub x).held = s.held := rfl
@[simp] theorem State.withPub_micros (x : Publication) : (s.withPub x).micros = s.micros := rfl
@[simp] theorem State.withPub_loader (x : Publication) : (s.withPub x).loader = s.loader := rfl
@[simp] theorem State.withPub_duties (x : Publication) : (s.withPub x).duties = s.duties := rfl
@[simp] theorem State.withPub_params (x : Publication) : (s.withPub x).params = s.params := rfl
@[simp] theorem State.withPub_link (x : Publication) : (s.withPub x).link = s.link := rfl
@[simp] theorem State.withPub_picture (x : Publication) : (s.withPub x).picture = s.picture := rfl
@[simp] theorem State.withPub_pub (x : Publication) : (s.withPub x).pub = x := rfl
@[simp] theorem State.withPub_inputs (x : Publication) : (s.withPub x).inputs = s.inputs := rfl
@[simp] theorem State.withPub_drive (x : Publication) : (s.withPub x).drive = s.drive := rfl
@[simp] theorem State.withPub_armA (x : Publication) : (s.withPub x).armA = s.armA := rfl
@[simp] theorem State.withPub_armB (x : Publication) : (s.withPub x).armB = s.armB := rfl
@[simp] theorem State.withPub_water (x : Publication) : (s.withPub x).water = s.water := rfl
@[simp] theorem State.withPub_console (x : Publication) : (s.withPub x).console = s.console := rfl
@[simp] theorem State.withPub_safe (x : Publication) : (s.withPub x).safe = s.safe := rfl
@[simp] theorem State.withPub_pending (x : Publication) : (s.withPub x).pending = s.pending := rfl
@[simp] theorem State.withPub_arm (x : Publication) (v : ArmUnit) : (s.withPub x).arm v = s.arm v := by cases v <;> rfl
@[simp] theorem ms_withPub (x : Publication) : ms (s.withPub x) = ms s := rfl
@[simp] theorem dutiesRun_withPub (x : Publication) : dutiesRun (s.withPub x) = dutiesRun s := rfl
@[simp] theorem operating_withPub (x : Publication) : operating (s.withPub x) = operating s := rfl
@[simp] theorem isSafe_withPub (x : Publication) : isSafe (s.withPub x) = isSafe s := rfl
@[simp] theorem armPresent_withPub (x : Publication) (v : ArmUnit) : armPresent (s.withPub x) v = armPresent s v := by cases v <;> rfl
@[simp] theorem armParams_withPub (x : Publication) (v : ArmUnit) : armParams (s.withPub x) v = armParams s v := by cases v <;> rfl

/-! ### `withInputs` -/

@[simp] theorem State.withInputs_held (x : Inputs) : (s.withInputs x).held = s.held := rfl
@[simp] theorem State.withInputs_micros (x : Inputs) : (s.withInputs x).micros = s.micros := rfl
@[simp] theorem State.withInputs_loader (x : Inputs) : (s.withInputs x).loader = s.loader := rfl
@[simp] theorem State.withInputs_duties (x : Inputs) : (s.withInputs x).duties = s.duties := rfl
@[simp] theorem State.withInputs_params (x : Inputs) : (s.withInputs x).params = s.params := rfl
@[simp] theorem State.withInputs_link (x : Inputs) : (s.withInputs x).link = s.link := rfl
@[simp] theorem State.withInputs_picture (x : Inputs) : (s.withInputs x).picture = s.picture := rfl
@[simp] theorem State.withInputs_pub (x : Inputs) : (s.withInputs x).pub = s.pub := rfl
@[simp] theorem State.withInputs_inputs (x : Inputs) : (s.withInputs x).inputs = x := rfl
@[simp] theorem State.withInputs_drive (x : Inputs) : (s.withInputs x).drive = s.drive := rfl
@[simp] theorem State.withInputs_armA (x : Inputs) : (s.withInputs x).armA = s.armA := rfl
@[simp] theorem State.withInputs_armB (x : Inputs) : (s.withInputs x).armB = s.armB := rfl
@[simp] theorem State.withInputs_water (x : Inputs) : (s.withInputs x).water = s.water := rfl
@[simp] theorem State.withInputs_console (x : Inputs) : (s.withInputs x).console = s.console := rfl
@[simp] theorem State.withInputs_safe (x : Inputs) : (s.withInputs x).safe = s.safe := rfl
@[simp] theorem State.withInputs_pending (x : Inputs) : (s.withInputs x).pending = s.pending := rfl
@[simp] theorem State.withInputs_arm (x : Inputs) (v : ArmUnit) : (s.withInputs x).arm v = s.arm v := by cases v <;> rfl
@[simp] theorem ms_withInputs (x : Inputs) : ms (s.withInputs x) = ms s := rfl
@[simp] theorem dutiesRun_withInputs (x : Inputs) : dutiesRun (s.withInputs x) = dutiesRun s := rfl
@[simp] theorem operating_withInputs (x : Inputs) : operating (s.withInputs x) = operating s := rfl
@[simp] theorem isSafe_withInputs (x : Inputs) : isSafe (s.withInputs x) = isSafe s := rfl
@[simp] theorem armPresent_withInputs (x : Inputs) (v : ArmUnit) : armPresent (s.withInputs x) v = armPresent s v := by cases v <;> rfl
@[simp] theorem armParams_withInputs (x : Inputs) (v : ArmUnit) : armParams (s.withInputs x) v = armParams s v := by cases v <;> rfl

/-! ### `withDrive` -/

@[simp] theorem State.withDrive_held (x : Drive) : (s.withDrive x).held = s.held := rfl
@[simp] theorem State.withDrive_micros (x : Drive) : (s.withDrive x).micros = s.micros := rfl
@[simp] theorem State.withDrive_loader (x : Drive) : (s.withDrive x).loader = s.loader := rfl
@[simp] theorem State.withDrive_duties (x : Drive) : (s.withDrive x).duties = s.duties := rfl
@[simp] theorem State.withDrive_params (x : Drive) : (s.withDrive x).params = s.params := rfl
@[simp] theorem State.withDrive_link (x : Drive) : (s.withDrive x).link = s.link := rfl
@[simp] theorem State.withDrive_picture (x : Drive) : (s.withDrive x).picture = s.picture := rfl
@[simp] theorem State.withDrive_pub (x : Drive) : (s.withDrive x).pub = s.pub := rfl
@[simp] theorem State.withDrive_inputs (x : Drive) : (s.withDrive x).inputs = s.inputs := rfl
@[simp] theorem State.withDrive_drive (x : Drive) : (s.withDrive x).drive = x := rfl
@[simp] theorem State.withDrive_armA (x : Drive) : (s.withDrive x).armA = s.armA := rfl
@[simp] theorem State.withDrive_armB (x : Drive) : (s.withDrive x).armB = s.armB := rfl
@[simp] theorem State.withDrive_water (x : Drive) : (s.withDrive x).water = s.water := rfl
@[simp] theorem State.withDrive_console (x : Drive) : (s.withDrive x).console = s.console := rfl
@[simp] theorem State.withDrive_safe (x : Drive) : (s.withDrive x).safe = s.safe := rfl
@[simp] theorem State.withDrive_pending (x : Drive) : (s.withDrive x).pending = s.pending := rfl
@[simp] theorem State.withDrive_arm (x : Drive) (v : ArmUnit) : (s.withDrive x).arm v = s.arm v := by cases v <;> rfl
@[simp] theorem ms_withDrive (x : Drive) : ms (s.withDrive x) = ms s := rfl
@[simp] theorem dutiesRun_withDrive (x : Drive) : dutiesRun (s.withDrive x) = dutiesRun s := rfl
@[simp] theorem operating_withDrive (x : Drive) : operating (s.withDrive x) = operating s := rfl
@[simp] theorem isSafe_withDrive (x : Drive) : isSafe (s.withDrive x) = isSafe s := rfl
@[simp] theorem armPresent_withDrive (x : Drive) (v : ArmUnit) : armPresent (s.withDrive x) v = armPresent s v := by cases v <;> rfl
@[simp] theorem armParams_withDrive (x : Drive) (v : ArmUnit) : armParams (s.withDrive x) v = armParams s v := by cases v <;> rfl

/-! ### `withWater` -/

@[simp] theorem State.withWater_held (x : Water) : (s.withWater x).held = s.held := rfl
@[simp] theorem State.withWater_micros (x : Water) : (s.withWater x).micros = s.micros := rfl
@[simp] theorem State.withWater_loader (x : Water) : (s.withWater x).loader = s.loader := rfl
@[simp] theorem State.withWater_duties (x : Water) : (s.withWater x).duties = s.duties := rfl
@[simp] theorem State.withWater_params (x : Water) : (s.withWater x).params = s.params := rfl
@[simp] theorem State.withWater_link (x : Water) : (s.withWater x).link = s.link := rfl
@[simp] theorem State.withWater_picture (x : Water) : (s.withWater x).picture = s.picture := rfl
@[simp] theorem State.withWater_pub (x : Water) : (s.withWater x).pub = s.pub := rfl
@[simp] theorem State.withWater_inputs (x : Water) : (s.withWater x).inputs = s.inputs := rfl
@[simp] theorem State.withWater_drive (x : Water) : (s.withWater x).drive = s.drive := rfl
@[simp] theorem State.withWater_armA (x : Water) : (s.withWater x).armA = s.armA := rfl
@[simp] theorem State.withWater_armB (x : Water) : (s.withWater x).armB = s.armB := rfl
@[simp] theorem State.withWater_water (x : Water) : (s.withWater x).water = x := rfl
@[simp] theorem State.withWater_console (x : Water) : (s.withWater x).console = s.console := rfl
@[simp] theorem State.withWater_safe (x : Water) : (s.withWater x).safe = s.safe := rfl
@[simp] theorem State.withWater_pending (x : Water) : (s.withWater x).pending = s.pending := rfl
@[simp] theorem State.withWater_arm (x : Water) (v : ArmUnit) : (s.withWater x).arm v = s.arm v := by cases v <;> rfl
@[simp] theorem ms_withWater (x : Water) : ms (s.withWater x) = ms s := rfl
@[simp] theorem dutiesRun_withWater (x : Water) : dutiesRun (s.withWater x) = dutiesRun s := rfl
@[simp] theorem operating_withWater (x : Water) : operating (s.withWater x) = operating s := rfl
@[simp] theorem isSafe_withWater (x : Water) : isSafe (s.withWater x) = isSafe s := rfl
@[simp] theorem armPresent_withWater (x : Water) (v : ArmUnit) : armPresent (s.withWater x) v = armPresent s v := by cases v <;> rfl
@[simp] theorem armParams_withWater (x : Water) (v : ArmUnit) : armParams (s.withWater x) v = armParams s v := by cases v <;> rfl

/-! ### `withConsole` -/

@[simp] theorem State.withConsole_held (x : Console) : (s.withConsole x).held = s.held := rfl
@[simp] theorem State.withConsole_micros (x : Console) : (s.withConsole x).micros = s.micros := rfl
@[simp] theorem State.withConsole_loader (x : Console) : (s.withConsole x).loader = s.loader := rfl
@[simp] theorem State.withConsole_duties (x : Console) : (s.withConsole x).duties = s.duties := rfl
@[simp] theorem State.withConsole_params (x : Console) : (s.withConsole x).params = s.params := rfl
@[simp] theorem State.withConsole_link (x : Console) : (s.withConsole x).link = s.link := rfl
@[simp] theorem State.withConsole_picture (x : Console) : (s.withConsole x).picture = s.picture := rfl
@[simp] theorem State.withConsole_pub (x : Console) : (s.withConsole x).pub = s.pub := rfl
@[simp] theorem State.withConsole_inputs (x : Console) : (s.withConsole x).inputs = s.inputs := rfl
@[simp] theorem State.withConsole_drive (x : Console) : (s.withConsole x).drive = s.drive := rfl
@[simp] theorem State.withConsole_armA (x : Console) : (s.withConsole x).armA = s.armA := rfl
@[simp] theorem State.withConsole_armB (x : Console) : (s.withConsole x).armB = s.armB := rfl
@[simp] theorem State.withConsole_water (x : Console) : (s.withConsole x).water = s.water := rfl
@[simp] theorem State.withConsole_console (x : Console) : (s.withConsole x).console = x := rfl
@[simp] theorem State.withConsole_safe (x : Console) : (s.withConsole x).safe = s.safe := rfl
@[simp] theorem State.withConsole_pending (x : Console) : (s.withConsole x).pending = s.pending := rfl
@[simp] theorem State.withConsole_arm (x : Console) (v : ArmUnit) : (s.withConsole x).arm v = s.arm v := by cases v <;> rfl
@[simp] theorem ms_withConsole (x : Console) : ms (s.withConsole x) = ms s := rfl
@[simp] theorem dutiesRun_withConsole (x : Console) : dutiesRun (s.withConsole x) = dutiesRun s := rfl
@[simp] theorem operating_withConsole (x : Console) : operating (s.withConsole x) = operating s := rfl
@[simp] theorem isSafe_withConsole (x : Console) : isSafe (s.withConsole x) = isSafe s := rfl
@[simp] theorem armPresent_withConsole (x : Console) (v : ArmUnit) : armPresent (s.withConsole x) v = armPresent s v := by cases v <;> rfl
@[simp] theorem armParams_withConsole (x : Console) (v : ArmUnit) : armParams (s.withConsole x) v = armParams s v := by cases v <;> rfl

/-! ### `withSafe` -/

@[simp] theorem State.withSafe_held (x : SafeControl) : (s.withSafe x).held = s.held := rfl
@[simp] theorem State.withSafe_micros (x : SafeControl) : (s.withSafe x).micros = s.micros := rfl
@[simp] theorem State.withSafe_loader (x : SafeControl) : (s.withSafe x).loader = s.loader := rfl
@[simp] theorem State.withSafe_duties (x : SafeControl) : (s.withSafe x).duties = s.duties := rfl
@[simp] theorem State.withSafe_params (x : SafeControl) : (s.withSafe x).params = s.params := rfl
@[simp] theorem State.withSafe_link (x : SafeControl) : (s.withSafe x).link = s.link := rfl
@[simp] theorem State.withSafe_picture (x : SafeControl) : (s.withSafe x).picture = s.picture := rfl
@[simp] theorem State.withSafe_pub (x : SafeControl) : (s.withSafe x).pub = s.pub := rfl
@[simp] theorem State.withSafe_inputs (x : SafeControl) : (s.withSafe x).inputs = s.inputs := rfl
@[simp] theorem State.withSafe_drive (x : SafeControl) : (s.withSafe x).drive = s.drive := rfl
@[simp] theorem State.withSafe_armA (x : SafeControl) : (s.withSafe x).armA = s.armA := rfl
@[simp] theorem State.withSafe_armB (x : SafeControl) : (s.withSafe x).armB = s.armB := rfl
@[simp] theorem State.withSafe_water (x : SafeControl) : (s.withSafe x).water = s.water := rfl
@[simp] theorem State.withSafe_console (x : SafeControl) : (s.withSafe x).console = s.console := rfl
@[simp] theorem State.withSafe_safe (x : SafeControl) : (s.withSafe x).safe = x := rfl
@[simp] theorem State.withSafe_pending (x : SafeControl) : (s.withSafe x).pending = s.pending := rfl
@[simp] theorem State.withSafe_arm (x : SafeControl) (v : ArmUnit) : (s.withSafe x).arm v = s.arm v := by cases v <;> rfl
@[simp] theorem ms_withSafe (x : SafeControl) : ms (s.withSafe x) = ms s := rfl
@[simp] theorem dutiesRun_withSafe (x : SafeControl) : dutiesRun (s.withSafe x) = dutiesRun s := rfl
@[simp] theorem operating_withSafe (x : SafeControl) : operating (s.withSafe x) = operating s := rfl
@[simp] theorem armPresent_withSafe (x : SafeControl) (v : ArmUnit) : armPresent (s.withSafe x) v = armPresent s v := by cases v <;> rfl
@[simp] theorem armParams_withSafe (x : SafeControl) (v : ArmUnit) : armParams (s.withSafe x) v = armParams s v := by cases v <;> rfl

/-! ### `withArm` -/

@[simp] theorem State.withArm_held (u : ArmUnit) (x : Arm) : (s.withArm u x).held = s.held := by cases u <;> rfl
@[simp] theorem State.withArm_micros (u : ArmUnit) (x : Arm) : (s.withArm u x).micros = s.micros := by cases u <;> rfl
@[simp] theorem State.withArm_loader (u : ArmUnit) (x : Arm) : (s.withArm u x).loader = s.loader := by cases u <;> rfl
@[simp] theorem State.withArm_duties (u : ArmUnit) (x : Arm) : (s.withArm u x).duties = s.duties := by cases u <;> rfl
@[simp] theorem State.withArm_params (u : ArmUnit) (x : Arm) : (s.withArm u x).params = s.params := by cases u <;> rfl
@[simp] theorem State.withArm_link (u : ArmUnit) (x : Arm) : (s.withArm u x).link = s.link := by cases u <;> rfl
@[simp] theorem State.withArm_picture (u : ArmUnit) (x : Arm) : (s.withArm u x).picture = s.picture := by cases u <;> rfl
@[simp] theorem State.withArm_pub (u : ArmUnit) (x : Arm) : (s.withArm u x).pub = s.pub := by cases u <;> rfl
@[simp] theorem State.withArm_inputs (u : ArmUnit) (x : Arm) : (s.withArm u x).inputs = s.inputs := by cases u <;> rfl
@[simp] theorem State.withArm_drive (u : ArmUnit) (x : Arm) : (s.withArm u x).drive = s.drive := by cases u <;> rfl
@[simp] theorem State.withArm_water (u : ArmUnit) (x : Arm) : (s.withArm u x).water = s.water := by cases u <;> rfl
@[simp] theorem State.withArm_console (u : ArmUnit) (x : Arm) : (s.withArm u x).console = s.console := by cases u <;> rfl
@[simp] theorem State.withArm_safe (u : ArmUnit) (x : Arm) : (s.withArm u x).safe = s.safe := by cases u <;> rfl
@[simp] theorem State.withArm_pending (u : ArmUnit) (x : Arm) : (s.withArm u x).pending = s.pending := by cases u <;> rfl
@[simp] theorem State.withArm_arm_same (u : ArmUnit) (x : Arm) : (s.withArm u x).arm u = x := by cases u <;> rfl
theorem State.withArm_arm_other {u v : ArmUnit} (h : v ≠ u) (x : Arm) : (s.withArm u x).arm v = s.arm v := by
  cases u <;> cases v <;> first | rfl | exact absurd rfl h
@[simp] theorem State.withArm_a_armA (x : Arm) : (s.withArm .a x).armA = x := rfl
@[simp] theorem State.withArm_a_armB (x : Arm) : (s.withArm .a x).armB = s.armB := rfl
@[simp] theorem State.withArm_b_armA (x : Arm) : (s.withArm .b x).armA = s.armA := rfl
@[simp] theorem State.withArm_b_armB (x : Arm) : (s.withArm .b x).armB = x := rfl
@[simp] theorem State.arm_a : s.arm .a = s.armA := rfl
@[simp] theorem State.arm_b : s.arm .b = s.armB := rfl
@[simp] theorem ms_withArm (u : ArmUnit) (x : Arm) : ms (s.withArm u x) = ms s := by cases u <;> rfl
@[simp] theorem dutiesRun_withArm (u : ArmUnit) (x : Arm) : dutiesRun (s.withArm u x) = dutiesRun s := by cases u <;> rfl
@[simp] theorem operating_withArm (u : ArmUnit) (x : Arm) : operating (s.withArm u x) = operating s := by cases u <;> rfl
@[simp] theorem isSafe_withArm (u : ArmUnit) (x : Arm) : isSafe (s.withArm u x) = isSafe s := by cases u <;> rfl
@[simp] theorem armPresent_withArm (u : ArmUnit) (x : Arm) (v : ArmUnit) : armPresent (s.withArm u x) v = armPresent s v := by
  cases u <;> cases v <;> rfl
@[simp] theorem armParams_withArm (u : ArmUnit) (x : Arm) (v : ArmUnit) : armParams (s.withArm u x) v = armParams s v := by
  cases u <;> cases v <;> rfl
@[simp] theorem State.withArm_withArm (u : ArmUnit) (x y : Arm) : (s.withArm u x).withArm u y = s.withArm u y := by cases u <;> rfl

/-! ### The queue of commands -/

@[simp] theorem State.withFetchWord_eq (nbits w : Nat) : s.withFetchWord nbits w = s := rfl

end Sys2Proof.Machine
end

