-- ==== Sys2Proof/Laws/Frames.lean ====
section
/-! SUPPORT. What the shared operations leave alone. A frame is stated once as a structure with one field per block kept, and
each operation has one lemma that gives its frame; a proof takes the field it needs, as in `(requestCyclic_frame t s).link`. -/

namespace Sys2Proof.Machine

/-! ## Operations of the Publication Scheduler -/

/-- Everything but the Publication Scheduler is kept. -/
structure KeepsAllButPub (s t : State) : Prop where
  held : t.held = s.held
  micros : t.micros = s.micros
  loader : t.loader = s.loader
  duties : t.duties = s.duties
  params : t.params = s.params
  link : t.link = s.link
  picture : t.picture = s.picture
  inputs : t.inputs = s.inputs
  drive : t.drive = s.drive
  armA : t.armA = s.armA
  armB : t.armB = s.armB
  water : t.water = s.water
  console : t.console = s.console
  safe : t.safe = s.safe
  pending : t.pending = s.pending

theorem KeepsAllButPub.refl (s : State) : KeepsAllButPub s s := by constructor <;> rfl

theorem KeepsAllButPub.trans {s t r : State} (h : KeepsAllButPub s t) (k : KeepsAllButPub t r) : KeepsAllButPub s r :=
  ⟨k.held.trans h.held, k.micros.trans h.micros, k.loader.trans h.loader, k.duties.trans h.duties,
    k.params.trans h.params, k.link.trans h.link, k.picture.trans h.picture, k.inputs.trans h.inputs,
    k.drive.trans h.drive, k.armA.trans h.armA, k.armB.trans h.armB, k.water.trans h.water,
    k.console.trans h.console, k.safe.trans h.safe, k.pending.trans h.pending⟩

theorem KeepsAllButPub.withPub (s : State) (p : Publication) : KeepsAllButPub s (s.withPub p) := by constructor <;> rfl

/-- A state that keeps all but the scheduler is the old one with the new scheduler. -/
theorem KeepsAllButPub.eq {s t : State} (h : KeepsAllButPub s t) : t = s.withPub t.pub := by
  cases h; cases s; cases t; simp_all [State.withPub]

theorem KeepsAllButPub.arm {s t : State} (h : KeepsAllButPub s t) (u : ArmUnit) : t.arm u = s.arm u := by
  cases u
  · exact h.armA
  · exact h.armB

theorem publishCyclic_frame (t : CyclicTopic) (s : State) : KeepsAllButPub s (publishCyclic t s) :=
  KeepsAllButPub.withPub s _

theorem startPeriod_frame (t : CyclicTopic) (n : Nat) (s : State) : KeepsAllButPub s (startPeriod t n s) :=
  KeepsAllButPub.withPub s _

theorem requestCyclic_frame (t : CyclicTopic) (s : State) : KeepsAllButPub s (requestCyclic t s) := by
  unfold requestCyclic
  split
  · exact (publishCyclic_frame t s).trans (startPeriod_frame ..)
  · exact .refl s

theorem enqueueEvent_frame (e : TxEntry) (s : State) : KeepsAllButPub s (enqueueEvent e s) := by
  unfold enqueueEvent
  split <;> exact KeepsAllButPub.withPub s _

theorem deferEvent_frame (e : TxEntry) (s : State) : KeepsAllButPub s (deferEvent e s) := by
  unfold deferEvent
  split <;> exact KeepsAllButPub.withPub s _

theorem requestEvent_frame (t : Topic) (p : List Byte) (s : State) : KeepsAllButPub s (requestEvent t p s) := by
  unfold requestEvent
  split
  · exact (KeepsAllButPub.withPub s _).trans (enqueueEvent_frame ..)
  · exact (KeepsAllButPub.withPub s _).trans (deferEvent_frame ..)
  · exact .refl s
  · exact .refl s

theorem requestNotice_frame (c : NoticeCode) (d1 d2 : Nat) (s : State) : KeepsAllButPub s (requestNotice c d1 d2 s) :=
  requestEvent_frame ..

theorem requestConfigBad_frame (s : State) : KeepsAllButPub s (requestConfigBad s) := by
  unfold requestConfigBad
  dsimp only
  split <;> exact (KeepsAllButPub.withPub s _).trans (KeepsAllButPub.withPub _ _)

theorem returnFrame_frame (e : TxEntry) (s : State) : KeepsAllButPub s (returnFrame e s) := by
  unfold returnFrame
  split
  · split
    · exact .refl s
    · exact KeepsAllButPub.withPub s _
  · exact KeepsAllButPub.withPub s _

theorem reportDropped_frame (s : State) : KeepsAllButPub s (reportDropped s) := by
  unfold reportDropped
  split
  · exact KeepsAllButPub.withPub s _
  · exact .refl s

theorem freePlace_frame (s : State) : KeepsAllButPub s (freePlace s) := by
  unfold freePlace
  split
  · split
    · exact reportDropped_frame s
    · exact .withPub ..
  · exact .refl s

theorem settleNotice_frame (s : State) : KeepsAllButPub s (settleNotice s) := by
  unfold settleNotice
  split
  · exact (KeepsAllButPub.withPub s _).trans (reportDropped_frame _)
  · exact .refl s

theorem checkUrgency_frame (s : State) : KeepsAllButPub s (checkUrgency s) := by
  unfold checkUrgency
  split
  · exact requestCyclic_frame ..
  · exact .refl s

theorem askArm_frame (u : ArmUnit) (s : State) : KeepsAllButPub s (askArm u s) := requestCyclic_frame ..

theorem askClear_frame (i : ClearItems) (s : State) : KeepsAllButPub s (askClear i s) := requestEvent_frame ..

theorem pedalNotice_frame (reading : Nat) (s : State) : KeepsAllButPub s (pedalNotice reading s) := requestNotice_frame ..

theorem noticeTank_frame (was : Bool) (s : State) : KeepsAllButPub s (noticeTank was s) := by
  unfold noticeTank
  split
  · exact requestNotice_frame ..
  · exact .refl s

theorem firstFrame_frame (s : State) (t : CyclicTopic) : KeepsAllButPub s (firstFrame s t) := by
  unfold firstFrame
  split
  · exact (publishCyclic_frame t s).trans (startPeriod_frame ..)
  · exact .refl s

theorem enqueueAllDeferred_frame (s : State) : KeepsAllButPub s (enqueueAllDeferred s) := KeepsAllButPub.withPub s _

/-! ## Operations of one arm unit -/

/-- Everything but one arm unit and the Publication Scheduler is kept. -/
structure KeepsAllButArm (u : ArmUnit) (s t : State) : Prop where
  held : t.held = s.held
  micros : t.micros = s.micros
  loader : t.loader = s.loader
  duties : t.duties = s.duties
  params : t.params = s.params
  link : t.link = s.link
  picture : t.picture = s.picture
  inputs : t.inputs = s.inputs
  drive : t.drive = s.drive
  other : ∀ v, v ≠ u → t.arm v = s.arm v
  water : t.water = s.water
  console : t.console = s.console
  safe : t.safe = s.safe
  pending : t.pending = s.pending

namespace KeepsAllButArm

variable {u : ArmUnit} {s t r : State}

theorem refl (u : ArmUnit) (s : State) : KeepsAllButArm u s s := by constructor <;> first | rfl | exact fun _ _ => rfl

theorem trans (h : KeepsAllButArm u s t) (k : KeepsAllButArm u t r) : KeepsAllButArm u s r :=
  ⟨k.held.trans h.held, k.micros.trans h.micros, k.loader.trans h.loader, k.duties.trans h.duties,
    k.params.trans h.params, k.link.trans h.link, k.picture.trans h.picture, k.inputs.trans h.inputs,
    k.drive.trans h.drive, fun v hv => (k.other v hv).trans (h.other v hv), k.water.trans h.water,
    k.console.trans h.console, k.safe.trans h.safe, k.pending.trans h.pending⟩

theorem withArm (u : ArmUnit) (s : State) (x : Arm) : KeepsAllButArm u s (s.withArm u x) := by
  constructor <;> first | exact fun v hv => State.withArm_arm_other hv x | simp

theorem ofPub (h : KeepsAllButPub s t) : KeepsAllButArm u s t := by
  constructor <;> first | exact fun v _ => h.arm v | (cases h; assumption)

theorem ms_eq (h : KeepsAllButArm u s t) : ms t = ms s := by simp [ms, h.micros]

theorem operating_eq (h : KeepsAllButArm u s t) : operating t = operating s := by simp [operating, h.loader]

theorem dutiesRun_eq (h : KeepsAllButArm u s t) : dutiesRun t = dutiesRun s := by simp [dutiesRun, h.loader]

theorem isSafe_eq (h : KeepsAllButArm u s t) : isSafe t = isSafe s := by simp [isSafe, h.safe]

theorem armParams_eq (h : KeepsAllButArm u s t) (v : ArmUnit) : armParams t v = armParams s v := by
  cases v <;> simp [armParams, h.params]

theorem armPresent_eq (h : KeepsAllButArm u s t) (v : ArmUnit) : armPresent t v = armPresent s v := by
  cases v <;> simp [armPresent, h.duties]

end KeepsAllButArm

theorem setArmClaim_frame (u : ArmUnit) (s : State) : KeepsAllButArm u s (setArmClaim u s) := .withArm ..

theorem reformArmClaim_frame (u : ArmUnit) (s : State) : KeepsAllButArm u s (reformArmClaim u s) :=
  (setArmClaim_frame u s).trans (.ofPub (checkUrgency_frame _))

theorem changeArm_frame (u : ArmUnit) (st : ArmState) (s : State) : KeepsAllButArm u s (changeArm u st s) :=
  (KeepsAllButArm.withArm ..).trans (reformArmClaim_frame ..)

theorem restIn_frame (u : ArmUnit) (st : ArmState) (s : State) : KeepsAllButArm u s (restIn u st s) :=
  (changeArm_frame u st s).trans (.ofPub (askArm_frame ..))

theorem beginStep_frame (u : ArmUnit) (st : Step) (s : State) : KeepsAllButArm u s (beginStep u st s) := by
  unfold beginStep
  dsimp only
  split <;> exact .withArm ..

theorem runSteps_frame (u : ArmUnit) (l : List Step) (s : State) : KeepsAllButArm u s (runSteps u l s).1 := by
  induction l generalizing s with
  | nil => exact .refl u s
  | cons st rest ih =>
    unfold runSteps
    dsimp only
    split
    · exact ((beginStep_frame u st s).trans (.withArm ..)).trans (ih _)
    · exact beginStep_frame u st s

theorem endList_frame (u : ArmUnit) (r : State × Bool) : KeepsAllButArm u r.1 (endList u r).1 := by
  unfold endList
  dsimp only
  split
  · exact .withArm ..
  · exact .refl u _

theorem startList_frame (u : ArmUnit) (st : ArmState) (l : ListName) (s : State) :
    KeepsAllButArm u s (startList u st l s).1 := by
  unfold startList
  exact ((KeepsAllButArm.withArm ..).trans (changeArm_frame ..)).trans
    ((runSteps_frame ..).trans ((endList_frame ..).trans (.ofPub (askArm_frame ..))))

theorem startRetract_frame (u : ArmUnit) (s : State) : KeepsAllButArm u s (startRetract u s) := by
  unfold startRetract
  dsimp only
  split
  · exact (startList_frame ..).trans (restIn_frame ..)
  · exact startList_frame ..

theorem finishYield_frame (u : ArmUnit) (s : State) : KeepsAllButArm u s (finishYield u s) := by
  unfold finishYield
  split
  · exact startRetract_frame ..
  · exact restIn_frame ..

theorem startYield_frame (u : ArmUnit) (s : State) : KeepsAllButArm u s (startYield u s) := by
  unfold startYield
  dsimp only
  split
  · exact (startList_frame ..).trans (finishYield_frame ..)
  · exact startList_frame ..

theorem startDeploy_frame (u : ArmUnit) (s : State) : KeepsAllButArm u s (startDeploy u s) := by
  unfold startDeploy
  dsimp only
  split
  · exact (startList_frame ..).trans (restIn_frame ..)
  · exact startList_frame ..

theorem startResume_frame (u : ArmUnit) (s : State) : KeepsAllButArm u s (startResume u s) := by
  unfold startResume
  dsimp only
  split
  · exact (startList_frame ..).trans (restIn_frame ..)
  · exact startList_frame ..

theorem finishList_frame (u : ArmUnit) (l : ListName) (s : State) : KeepsAllButArm u s (finishList u l s) := by
  cases l
  · exact .refl u s
  · exact restIn_frame ..
  · exact restIn_frame ..
  · exact finishYield_frame ..
  · exact restIn_frame ..

theorem completeStep_frame (u : ArmUnit) (s : State) : KeepsAllButArm u s (completeStep u s) := by
  unfold completeStep
  dsimp only
  split
  · exact (KeepsAllButArm.withArm ..).trans
      ((runSteps_frame ..).trans ((endList_frame ..).trans (finishList_frame ..)))
  · exact (KeepsAllButArm.withArm ..).trans ((runSteps_frame ..).trans (endList_frame ..))

theorem faultArm_frame (u : ArmUnit) (c : ArmFault) (s : State) : KeepsAllButArm u s (faultArm u c s) := by
  unfold faultArm
  exact ((KeepsAllButArm.withArm ..).trans (reformArmClaim_frame ..)).trans (.ofPub (askArm_frame ..))

theorem faultEvent_frame (u : ArmUnit) (c : ArmFault) (s : State) : KeepsAllButArm u s (faultEvent u c s) := by
  unfold faultEvent
  split
  · exact faultArm_frame ..
  · exact .refl u s

theorem freeArm_frame (u : ArmUnit) (s : State) : KeepsAllButArm u s (freeArm u s) :=
  (KeepsAllButArm.withArm ..).trans (startRetract_frame ..)

theorem compareAngle_frame (u : ArmUnit) (reading : Nat) (s : State) : KeepsAllButArm u s (compareAngle u reading s) := by
  unfold compareAngle
  split
  · exact completeStep_frame ..
  · exact .refl u s

theorem handAngle_frame (u : ArmUnit) (left : Bool) (reading : Nat) (s : State) :
    KeepsAllButArm u s (handAngle u left reading s) := by
  unfold handAngle
  split
  · split
    · exact (faultEvent_frame ..).trans (compareAngle_frame ..)
    · exact (compareAngle_frame ..).trans (faultEvent_frame ..)
  · exact compareAngle_frame ..

theorem pressDeflect_frame (u : ArmUnit) (s : State) : KeepsAllButArm u s (pressDeflect u s) := by
  unfold pressDeflect
  dsimp only
  split
  all_goals first
    | exact .withArm ..
    | (split
       · exact (KeepsAllButArm.withArm ..).trans (startYield_frame ..)
       · exact .withArm ..)

theorem releaseArm_frame (u : ArmUnit) (s : State) : KeepsAllButArm u s (releaseArm u s) := by
  unfold releaseArm
  split
  · exact freeArm_frame ..
  · exact .refl u s

theorem takeArmItem_frame (u : ArmUnit) (s : State) : KeepsAllButArm u s (takeArmItem u s) := by
  unfold takeArmItem
  split
  · exact freeArm_frame ..
  · exact .refl u s

theorem readArm_frame (u : ArmUnit) (expiry : Nat) (s : State) : KeepsAllButArm u s (readArm u expiry s) := .withArm ..

theorem checkDistance_frame (u : ArmUnit) (mm : Nat) (s : State) : KeepsAllButArm u s (checkDistance u mm s) := by
  unfold checkDistance
  dsimp only
  split
  · split
    · exact completeStep_frame ..
    · exact .refl u s
  all_goals
    split
    · exact (KeepsAllButArm.withArm ..).trans (completeStep_frame ..)
    · exact .withArm ..

theorem checkStep_frame (u : ArmUnit) (s : State) : KeepsAllButArm u s (checkStep u s) := by
  unfold checkStep
  split
  · exact checkDistance_frame ..
  all_goals first
    | exact .refl u s
    | (split
       · exact completeStep_frame ..
       · exact .refl u s)

theorem checkAngle_frame (u : ArmUnit) (s : State) : KeepsAllButArm u s (checkAngle u s) := by
  unfold checkAngle
  split
  · exact .refl u s
  · exact faultEvent_frame ..

theorem armTransition_frame (u : ArmUnit) (expiry : Nat) (s : State) : KeepsAllButArm u s (armTransition u expiry s) := by
  have working : KeepsAllButArm u s (workingPeriod u expiry s) := by
    unfold workingPeriod
    split
    · exact startRetract_frame ..
    · split
      · exact startYield_frame ..
      · exact .refl u s
  unfold armTransition
  split
  · unfold stowedPeriod
    split
    · exact (KeepsAllButArm.withArm ..).trans (startDeploy_frame ..)
    · exact .refl u s
  · exact working
  · exact working
  · exact working
  · exact .refl u s
  · unfold yieldedPeriod
    split
    · exact startRetract_frame ..
    · split
      · exact startResume_frame ..
      · exact .refl u s
  · split
    · exact startDeploy_frame ..
    · exact .refl u s
  · exact .refl u s

theorem armPeriod_frame (u : ArmUnit) (expiry : Nat) (s : State) : KeepsAllButArm u s (armPeriod u expiry s) := by
  unfold armPeriod
  dsimp only
  split
  · exact ((readArm_frame u expiry s).trans (checkStep_frame ..)).trans
      ((checkAngle_frame ..).trans ((armTransition_frame ..).trans (.withArm ..)))
  · exact readArm_frame ..

theorem loadWindow_frame (u : ArmUnit) (expiry : Nat) (s : State) : KeepsAllButArm u s (loadWindow u expiry s) := by
  unfold loadWindow
  dsimp only
  generalize (if brushMeasured s u then _ else _ : Nat) = load
  split
  · exact .withArm ..
  · exact (KeepsAllButArm.withArm ..).trans (reformArmClaim_frame ..)

/-! ## Operations of Safe Control -/

/-- Everything but the duties' own blocks, the cause set and the Publication Scheduler is kept. -/
structure KeepsAllButDuties (s t : State) : Prop where
  held : t.held = s.held
  micros : t.micros = s.micros
  loader : t.loader = s.loader
  duties : t.duties = s.duties
  params : t.params = s.params
  link : t.link = s.link
  picture : t.picture = s.picture
  inputs : t.inputs = s.inputs
  hold : t.safe.hold = s.safe.hold
  pending : t.pending = s.pending

namespace KeepsAllButDuties

variable {s t r : State}

theorem refl (s : State) : KeepsAllButDuties s s := by constructor <;> rfl

theorem trans (h : KeepsAllButDuties s t) (k : KeepsAllButDuties t r) : KeepsAllButDuties s r :=
  ⟨k.held.trans h.held, k.micros.trans h.micros, k.loader.trans h.loader, k.duties.trans h.duties,
    k.params.trans h.params, k.link.trans h.link, k.picture.trans h.picture, k.inputs.trans h.inputs,
    k.hold.trans h.hold, k.pending.trans h.pending⟩

theorem ofPub (h : KeepsAllButPub s t) : KeepsAllButDuties s t := by
  constructor <;> first | exact congrArg SafeControl.hold h.safe | (cases h; assumption)

theorem ofArm {u : ArmUnit} (h : KeepsAllButArm u s t) : KeepsAllButDuties s t := by
  constructor <;> first | exact congrArg SafeControl.hold h.safe | (cases h; assumption)

theorem withDrive (s : State) (x : Drive) : KeepsAllButDuties s (s.withDrive x) := by constructor <;> rfl

theorem withWater (s : State) (x : Water) : KeepsAllButDuties s (s.withWater x) := by constructor <;> rfl

theorem withConsole (s : State) (x : Console) : KeepsAllButDuties s (s.withConsole x) := by constructor <;> rfl

theorem withCauses (s : State) (c : CauseSet) : KeepsAllButDuties s (s.withSafe { s.safe with causes := c }) := by
  constructor <;> rfl

theorem ms_eq (h : KeepsAllButDuties s t) : ms t = ms s := by simp [ms, h.micros]

theorem operating_eq (h : KeepsAllButDuties s t) : operating t = operating s := by simp [operating, h.loader]

theorem dutiesRun_eq (h : KeepsAllButDuties s t) : dutiesRun t = dutiesRun s := by simp [dutiesRun, h.loader]

theorem armParams_eq (h : KeepsAllButDuties s t) (v : ArmUnit) : armParams t v = armParams s v := by
  cases v <;> simp [armParams, h.params]

theorem armPresent_eq (h : KeepsAllButDuties s t) (v : ArmUnit) : armPresent t v = armPresent s v := by
  cases v <;> simp [armPresent, h.duties]

end KeepsAllButDuties

theorem whenPresent_frame (present : Bool) (f : State → State) (s : State) (h : KeepsAllButDuties s (f s)) :
    KeepsAllButDuties s (whenPresent present f s) := by
  unfold whenPresent
  split
  · exact h
  · exact .refl s

theorem setAllClaims_frame (s : State) : KeepsAllButDuties s (setAllClaims s) := by
  unfold setAllClaims
  refine (whenPresent_frame s.duties.drive setDriveClaim s (.withDrive ..)).trans ?_
  refine (whenPresent_frame s.duties.armA (setArmClaim .a) _ (.ofArm (setArmClaim_frame ..))).trans ?_
  refine (whenPresent_frame s.duties.armB (setArmClaim .b) _ (.ofArm (setArmClaim_frame ..))).trans ?_
  refine (whenPresent_frame s.duties.water setWaterClaim _ (.withWater ..)).trans ?_
  exact whenPresent_frame s.duties.console setConsoleClaim _ (.withConsole ..)

theorem reformDriveClaim_frame (s : State) : KeepsAllButDuties s (reformDriveClaim s) :=
  (KeepsAllButDuties.withDrive ..).trans (.ofPub (checkUrgency_frame _))

theorem reformWaterClaim_frame (s : State) : KeepsAllButDuties s (reformWaterClaim s) :=
  (KeepsAllButDuties.withWater ..).trans (.ofPub (checkUrgency_frame _))

theorem changeWater_frame (st : WaterState) (s : State) : KeepsAllButDuties s (changeWater st s) :=
  ((KeepsAllButDuties.withWater ..).trans (reformWaterClaim_frame ..)).trans (.ofPub (requestCyclic_frame ..))

theorem safeWater_frame (s : State) : KeepsAllButDuties s (safeWater s) := by
  have inactive := KeepsAllButDuties.withWater s { s.water with active := false }
  have off := inactive.trans (changeWater_frame .off _)
  unfold safeWater
  split
  · exact off
  · exact off
  · exact off
  · exact inactive
  · exact inactive
  · exact inactive

theorem safeEntry_frame (s : State) : KeepsAllButDuties s (safeEntry s) := by
  unfold safeEntry
  dsimp only
  refine ((setAllClaims_frame s).trans (.ofPub (checkUrgency_frame _))).trans ?_
  refine (KeepsAllButDuties.withDrive _ (safeDrive (checkUrgency (setAllClaims s)).drive)).trans ?_
  refine (KeepsAllButDuties.ofArm (faultEvent_frame .a .stationSafe _)).trans ?_
  refine (KeepsAllButDuties.ofArm (faultEvent_frame .b .stationSafe _)).trans ?_
  exact whenPresent_frame _ _ _ (safeWater_frame _)

theorem reportCause_frame (c : Cause) (s : State) : KeepsAllButDuties s (reportCause c s) := by
  unfold reportCause
  split
  · exact .refl s
  · have entered : KeepsAllButDuties s
        (if isSafe s then s.withSafe { s.safe with causes := addCause s.safe.causes c }
          else safeEntry (s.withSafe { s.safe with causes := addCause s.safe.causes c })) := by
      split
      · exact .withCauses ..
      · exact (KeepsAllButDuties.withCauses ..).trans (safeEntry_frame _)
    dsimp only
    split
    · exact entered.trans (.ofPub (requestEvent_frame ..))
    · exact entered

theorem safeRelease_frame (s : State) : KeepsAllButDuties s (safeRelease s) := by
  unfold safeRelease
  refine (KeepsAllButDuties.withCauses s noCauses).trans ?_
  refine ((setAllClaims_frame _).trans (.ofPub (checkUrgency_frame _))).trans ?_
  exact (KeepsAllButDuties.ofArm (releaseArm_frame .a _)).trans (.ofArm (releaseArm_frame .b _))

theorem takeRelease_frame (s : State) : KeepsAllButDuties s (takeRelease s) := by
  unfold takeRelease
  split
  · exact .refl s
  · split
    · exact safeRelease_frame s
    · exact .ofPub (requestNotice_frame ..)

end Sys2Proof.Machine
end

