-- ==== Sys2Proof/Laws/Numbers.lean ====
section
/-! SUPPORT. The number helpers and the arithmetic of the duties: what each can answer. -/

namespace Sys2Proof.Machine

theorem clampInt_lower {lo hi : Int} (x : Int) : lo ≤ clampInt lo hi x := Int.le_max_left ..

theorem clampInt_upper {lo hi : Int} (h : lo ≤ hi) (x : Int) : clampInt lo hi x ≤ hi := by
  unfold clampInt; omega

theorem clampNat_le (hi : Nat) (x : Int) : clampNat hi x ≤ hi := Nat.min_le_left ..

theorem rampStep_pos (a : Nat) : 1 ≤ rampStep a := Nat.le_max_left ..

/-- The ramp never passes the larger of the old speed and the target (R94). -/
theorem ramp_le (v target up down : Nat) : ramp v target up down ≤ max v target := by
  unfold ramp
  split
  · omega
  · split <;> omega

/-- The ramp never passes the smaller of the old speed and the target (R94). -/
theorem le_ramp (v target up down : Nat) : min v target ≤ ramp v target up down := by
  unfold ramp
  split
  · omega
  · split <;> omega

/-- A rise of the ramp ends at most at the target (R94). -/
theorem ramp_rise {v target up down : Nat} (h : v < ramp v target up down) : ramp v target up down ≤ target := by
  unfold ramp at *
  split
  · omega
  · rename_i n
    simp only [n, ↓reduceIte] at h
    split at h <;> omega

theorem driveTarget_le (st : DriveState) (pending : Bool) (vr ceiling : Nat) :
    driveTarget st pending vr ceiling ≤ min vr ceiling := by
  unfold driveTarget; split <;> omega

/-- The requested speed lies within 0 and the mode maximum (R85). -/
theorem requestedSpeed_le (p : DriveParams) (m : Mode) (d : Direction) {pedal : Nat} (h : pedal ≤ 1000) :
    requestedSpeed p m d pedal ≤ modeMax p m d := by
  unfold requestedSpeed
  exact Nat.div_le_of_le_mul (Nat.mul_le_mul_right _ h)

theorem displacement_le (p : DriveParams) (v vm n : Nat) (a1 : Int) (lost : Bool) :
    (displacement p v vm n a1 lost).1 ≤ 1000 := by
  unfold displacement; split <;> exact clampNat_le ..

/-- A1 stays within its limit (R96–R98). -/
theorem displacement_a1 (p : DriveParams) (v vm n : Nat) (a1 : Int) (lost : Bool)
    (h : -(p.iLimit * 1024 : Int) ≤ a1 ∧ a1 ≤ p.iLimit * 1024) :
    -(p.iLimit * 1024 : Int) ≤ (displacement p v vm n a1 lost).2 ∧ (displacement p v vm n a1 lost).2 ≤ p.iLimit * 1024 := by
  unfold displacement
  split
  · constructor <;> dsimp only <;> omega
  · dsimp only
    split
    · exact h
    · exact ⟨clampInt_lower _, clampInt_upper (by omega) _⟩

theorem brushTarget_le (p : ArmParams) (vt : Nat) : brushTarget p vt ≤ p.maxRpm := Nat.min_le_left ..

theorem brushPwm_le (p : ArmParams) (target : Nat) (trim : Int) : brushPwm p target trim ≤ 1000 := clampNat_le ..

/-- A load window keeps L within 40–100 (R144). -/
theorem nextLoad_bounds {measured target load : Nat} (h : 40 ≤ load ∧ load ≤ 100) :
    40 ≤ nextLoad measured target load ∧ nextLoad measured target load ≤ 100 := by
  unfold nextLoad
  split
  · omega
  · split <;> omega

theorem nextTrim_bounds (p : WaterParams) (c : Option ChannelState) (q flow : Nat) {trim : Int}
    (h : -200 ≤ trim ∧ trim ≤ 200) : -200 ≤ nextTrim p c q flow trim ∧ nextTrim p c q flow trim ≤ 200 := by
  unfold nextTrim
  split <;> first
    | exact h
    | exact ⟨clampInt_lower _, clampInt_upper (by omega) _⟩
    | omega

theorem summedWidth_le (p : Picture) : summedWidth p ≤ 6000 := Nat.min_le_left ..

theorem slotWidth_le (p : Picture) (n : Fin 32) : slotWidth p n ≤ 3000 := by
  unfold slotWidth
  split
  · split <;> omega
  · omega

theorem travelSpeed_le (payload : List Byte) : travelSpeed payload ≤ 6000 := Nat.min_le_left ..

/-- The law of the capacity ceiling (R167): rate × width × ceiling is at most Qmax × 1,000,000. -/
theorem capacity_law (q rate width : Nat) : rate * width * min 6000 (q * 1000000 / (rate * width)) ≤ q * 1000000 :=
  Nat.le_trans (Nat.mul_le_mul_left _ (Nat.min_le_right ..)) (Nat.mul_div_le ..)

end Sys2Proof.Machine
end

