-- ==== Sys2Proof/Laws/Arms.lean ====
section
/-! SUPPORT. What the shared operations of an arm unit do to the unit itself: the brush, changes of arm state, step lists and
FAULT. -/

namespace Sys2Proof.Machine

variable {p : ArmParams} {a : Arm} {u : ArmUnit} {s : State}

/-! ## The brush -/

@[simp] theorem brushRuns_setTarget (now t : Nat) (a : Arm) : brushRuns (setTarget now t a) = brushRuns a := rfl
@[simp] theorem brushRuns_stopBrush (now : Nat) (a : Arm) : brushRuns (stopBrush now a) = brushRuns a := rfl
@[simp] theorem brushRuns_startBrush (p : ArmParams) (now : Nat) (a : Arm) : brushRuns (startBrush p now a) = brushRuns a := rfl

/-- What an arm's brush shows: at rest while it does not run, and otherwise a target and a PWM formed from it, with the trim
within its bounds (R142, R143). -/
structure BrushFormed (p : ArmParams) (a : Arm) : Prop where
  still : brushRuns a = false → a.target = 0 ∧ a.trim = 0 ∧ a.pwm = 0
  turning : brushRuns a = true → a.target ≤ p.maxRpm ∧ a.pwm = brushPwm p a.target a.trim
  trim : -150 ≤ a.trim ∧ a.trim ≤ 150

theorem stopBrush_formed (p : ArmParams) (now : Nat) (h : brushRuns a = false) : BrushFormed p (stopBrush now a) :=
  ⟨fun _ => ⟨rfl, rfl, rfl⟩, fun k => absurd k (by simp [h]), by simp [stopBrush]⟩

theorem startBrush_formed (now : Nat) (h : brushRuns a = true) (t : -150 ≤ a.trim ∧ a.trim ≤ 150) :
    BrushFormed p (startBrush p now a) :=
  ⟨fun k => absurd k (by simp [h]), fun _ => ⟨brushTarget_le .., rfl⟩, t⟩

/-- Step 6 of a period forms the brush, whatever stood before (R142, R143). -/
theorem periodBrush_formed (now : Nat) (c : Option ChannelState) (m : Nat) :
    BrushFormed p (periodBrush p now c m a) := by
  unfold periodBrush
  by_cases h : brushRuns a = true
  · simp only [h, ↓reduceIte]
    refine ⟨fun k => absurd k ?_, fun _ => ⟨brushTarget_le .., rfl⟩, ?_⟩
    · simpa [brushRuns, setTarget] using h
    · dsimp only
      split
      · exact ⟨clampInt_lower _, clampInt_upper (by omega) _⟩
      · omega
  · simp only [h]
    exact stopBrush_formed p now (by simpa using h)

/-- The brush after an event that may start or stop it, when nothing of it moved at the event (R142). -/
theorem settleBrush_formed {now : Nat} {was : Bool} (t : -150 ≤ a.trim ∧ a.trim ≤ 150)
    (h : was = true → a.target ≤ p.maxRpm ∧ a.pwm = brushPwm p a.target a.trim) : BrushFormed p (settleBrush p now was a) := by
  unfold settleBrush
  by_cases r : brushRuns a = true
  · cases was
    · simp only [r, ↓reduceIte, Bool.false_eq_true]
      exact startBrush_formed now r t
    · simp only [r, ↓reduceIte]
      exact ⟨fun k => absurd k (by simp [r]), fun _ => h rfl, t⟩
  · simp only [r]
    exact stopBrush_formed p now (by simpa using r)

/-- The fields that no brush operation moves. -/
structure BrushOnly (a b : Arm) : Prop where
  state : b.state = a.state
  list : b.list = a.list
  remaining : b.remaining = a.remaining
  deadline : b.deadline = a.deadline
  record : b.record = a.record
  engaged : b.engaged = a.engaged
  brushOnRun : b.brushOnRun = a.brushOnRun
  load : b.load = a.load
  loadDue : b.loadDue = a.loadDue
  reverse : b.reverse = a.reverse
  deflectOff : b.deflectOff = a.deflectOff
  levels : b.levels = a.levels
  cause : b.cause = a.cause
  claim : b.claim = a.claim
  inputs : b.inputs = a.inputs
  due : b.due = a.due

theorem stopBrush_only (now : Nat) (a : Arm) : BrushOnly a (stopBrush now a) := by constructor <;> rfl

theorem startBrush_only (p : ArmParams) (now : Nat) (a : Arm) : BrushOnly a (startBrush p now a) := by constructor <;> rfl

theorem settleBrush_only (p : ArmParams) (now : Nat) (was : Bool) (a : Arm) : BrushOnly a (settleBrush p now was a) := by
  unfold settleBrush
  split
  · split
    · constructor <;> rfl
    · exact startBrush_only ..
  · exact stopBrush_only ..

theorem periodBrush_only (p : ArmParams) (now : Nat) (c : Option ChannelState) (m : Nat) (a : Arm) :
    BrushOnly a (periodBrush p now c m a) := by
  unfold periodBrush
  split
  · constructor <;> rfl
  · exact stopBrush_only ..

/-! ## Changes of arm state -/

/-- What holds of an arm unit through every operation, between whose steps only its list is on its way. -/
structure ArmSound (p : ArmParams) (a : Arm) : Prop where
  brush : BrushFormed p a
  load : 40 ≤ a.load ∧ a.load ≤ 100
  cause : a.state = .fault ↔ a.cause ≠ .none
  stowed : a.state = .stowed → a.engaged = false
  window : a.loadDue.isSome = true ↔ a.state = .sweeping

/-- What an entry to a state leaves: the state, a load window exactly in SWEEPING, the brush disengaged in STOWED (R132, R144). -/
theorem enterState_fields (p : ArmParams) (nowUs nowMs : Nat) (st : ArmState) (a : Arm) :
    (enterState p nowUs nowMs st a).state = st ∧ (enterState p nowUs nowMs st a).list = a.list
      ∧ (enterState p nowUs nowMs st a).remaining = a.remaining ∧ (enterState p nowUs nowMs st a).deadline = a.deadline
      ∧ (enterState p nowUs nowMs st a).record = a.record ∧ (enterState p nowUs nowMs st a).load = a.load
      ∧ (enterState p nowUs nowMs st a).loadDue = (if st = .sweeping then some (nowMs + 500) else none)
      ∧ (enterState p nowUs nowMs st a).engaged = (if st = .stowed then false else a.engaged)
      ∧ (enterState p nowUs nowMs st a).cause = a.cause ∧ (enterState p nowUs nowMs st a).inputs = a.inputs
      ∧ (enterState p nowUs nowMs st a).levels = a.levels ∧ (enterState p nowUs nowMs st a).brushOnRun = a.brushOnRun
      ∧ (enterState p nowUs nowMs st a).due = a.due ∧ (enterState p nowUs nowMs st a).reverse = a.reverse
      ∧ (enterState p nowUs nowMs st a).deflectOff = a.deflectOff := by
  have h := settleBrush_only p nowUs (brushRuns a)
    { a with
      state := st
      loadDue := if st = .sweeping then some (nowMs + 500) else none
      engaged := if st = .stowed then false else a.engaged }
  exact ⟨h.state, h.list, h.remaining, h.deadline, h.record, h.load, h.loadDue, h.engaged, h.cause, h.inputs, h.levels,
    h.brushOnRun, h.due, h.reverse, h.deflectOff⟩

theorem enterState_sound {nowUs nowMs : Nat} {st : ArmState} (h : BrushFormed p a) (l : 40 ≤ a.load ∧ a.load ≤ 100)
    (c : a.cause = .none) (n : st ≠ .fault) : ArmSound p (enterState p nowUs nowMs st a) := by
  obtain ⟨hs, -, -, -, -, hl, hw, he, hc, -⟩ := enterState_fields p nowUs nowMs st a
  refine ⟨settleBrush_formed h.trim h.turning, by rw [hl]; exact l, ?_, ?_, ?_⟩
  · rw [hs, hc]; simp [n, c]
  · rw [hs, he]; intro e; simp [e]
  · rw [hs, hw]; split <;> simp_all

/-- The arm after a change of state is the entered one with its claim formed (R145). -/
theorem changeArm_arm (u : ArmUnit) (st : ArmState) (s : State) :
    (changeArm u st s).arm u =
      { enterState (armParams s u) s.micros (ms s) st (s.arm u) with
        claim := some (formClaim s (armOwnClaim (armParams s u) (enterState (armParams s u) s.micros (ms s) st (s.arm u)))) } := by
  unfold changeArm reformArmClaim
  rw [(checkUrgency_frame _).arm]
  simp [setArmClaim, formClaim]

theorem askArm_arm (u v : ArmUnit) (s : State) : (askArm u s).arm v = s.arm v := (askArm_frame u s).arm v

theorem restIn_arm (u : ArmUnit) (st : ArmState) (s : State) : (restIn u st s).arm u = (changeArm u st s).arm u :=
  askArm_arm ..

/-! ## Steps -/

/-- What a step that begins leaves alone of its own arm. -/
theorem beginStep_fields (u : ArmUnit) (st : Step) (s : State) :
    ((beginStep u st s).arm u).state = (s.arm u).state ∧ ((beginStep u st s).arm u).list = (s.arm u).list
      ∧ ((beginStep u st s).arm u).remaining = (s.arm u).remaining ∧ ((beginStep u st s).arm u).load = (s.arm u).load
      ∧ ((beginStep u st s).arm u).loadDue = (s.arm u).loadDue ∧ ((beginStep u st s).arm u).cause = (s.arm u).cause
      ∧ ((beginStep u st s).arm u).inputs = (s.arm u).inputs ∧ ((beginStep u st s).arm u).claim = (s.arm u).claim
      ∧ ((beginStep u st s).arm u).due = (s.arm u).due ∧ ((beginStep u st s).arm u).reverse = (s.arm u).reverse
      ∧ ((beginStep u st s).arm u).deflectOff = (s.arm u).deflectOff := by
  unfold beginStep
  dsimp only
  split
  · simp
  · split
    · have h := startBrush_only (armParams s u) s.micros { s.arm u with engaged := true, brushOnRun := true }
      rw [State.withArm_arm_same]
      exact ⟨h.state, h.list, h.remaining, h.load, h.loadDue, h.cause, h.inputs, h.claim, h.due, h.reverse, h.deflectOff⟩
    · have h := stopBrush_only s.micros { s.arm u with engaged := true, brushOnRun := true }
      rw [State.withArm_arm_same]
      exact ⟨h.state, h.list, h.remaining, h.load, h.loadDue, h.cause, h.inputs, h.claim, h.due, h.reverse, h.deflectOff⟩
  · have h := stopBrush_only s.micros { s.arm u with engaged := false }
    rw [State.withArm_arm_same]
    exact ⟨h.state, h.list, h.remaining, h.load, h.loadDue, h.cause, h.inputs, h.claim, h.due, h.reverse, h.deflectOff⟩
  all_goals simp

theorem beginStep_brush (h : BrushFormed (armParams s u) (s.arm u)) (st : Step) :
    BrushFormed (armParams s u) ((beginStep u st s).arm u) := by
  unfold beginStep
  dsimp only
  split
  · rw [State.withArm_arm_same]; exact ⟨h.still, h.turning, h.trim⟩
  · rw [State.withArm_arm_same]
    split
    · rename_i r; exact startBrush_formed _ r h.trim
    · rename_i r; exact stopBrush_formed _ _ (by simpa using r)
  · rw [State.withArm_arm_same]; exact stopBrush_formed _ _ (by simp [brushRuns])
  all_goals rw [State.withArm_arm_same]; exact ⟨h.still, h.turning, h.trim⟩

/-- Whether a step leaves a STOWED arm's brush disengaged is not asked: no list runs in STOWED (R133). A step that begins
keeps the rest of what holds of the arm. -/
theorem beginStep_sound (h : ArmSound (armParams s u) (s.arm u)) (n : (s.arm u).state ≠ .stowed) (st : Step) :
    ArmSound (armParams s u) ((beginStep u st s).arm u) := by
  obtain ⟨hs, -, -, hl, hw, hc, -⟩ := beginStep_fields u st s
  refine ⟨beginStep_brush h.brush st, by rw [hl]; exact h.load, by rw [hs, hc]; exact h.cause, ?_, by rw [hs, hw]; exact h.window⟩
  rw [hs]; exact fun e => absurd e n

theorem countStep_sound (h : ArmSound p a) : ArmSound p (countStep a) :=
  ⟨⟨h.brush.still, h.brush.turning, h.brush.trim⟩, h.load, h.cause, h.stowed, h.window⟩

theorem dropList_sound (h : ArmSound p a) : ArmSound p (dropList a) :=
  ⟨⟨h.brush.still, h.brush.turning, h.brush.trim⟩, h.load, h.cause, h.stowed, h.window⟩

/-- What running the steps of a list leaves of the arm (R134): its state, list and load factor as they were, soundness kept, and
the count of steps remaining 0 when the list ended, or between 1 and the count before when it rests at a wait step. -/
theorem runSteps_spec (u : ArmUnit) (l : List Step) (s : State) (h : ArmSound (armParams s u) (s.arm u))
    (n : (s.arm u).state ≠ .stowed) (c : (s.arm u).remaining = l.length) :
    ArmSound (armParams s u) ((runSteps u l s).1.arm u) ∧ ((runSteps u l s).1.arm u).state = (s.arm u).state
      ∧ ((runSteps u l s).1.arm u).list = (s.arm u).list ∧ ((runSteps u l s).1.arm u).cause = (s.arm u).cause
      ∧ ((runSteps u l s).1.arm u).inputs = (s.arm u).inputs
      ∧ ((runSteps u l s).2 = true → ((runSteps u l s).1.arm u).remaining = 0)
      ∧ ((runSteps u l s).2 = false →
          0 < ((runSteps u l s).1.arm u).remaining ∧ ((runSteps u l s).1.arm u).remaining ≤ (s.arm u).remaining) := by
  induction l generalizing s with
  | nil => exact ⟨h, rfl, rfl, rfl, rfl, fun _ => c, fun k => absurd k (by simp [runSteps])⟩
  | cons st rest ih =>
    obtain ⟨hs, hl, hr, -, -, hc, hi, -⟩ := beginStep_fields u st s
    have sound := beginStep_sound h n st
    have pe : armParams (beginStep u st s) u = armParams s u := (beginStep_frame u st s).armParams_eq u
    unfold runSteps
    dsimp only
    split
    · have ih := ih ((beginStep u st s).withArm u (countStep ((beginStep u st s).arm u)))
        (by rw [armParams_withArm, State.withArm_arm_same, pe]; exact countStep_sound sound)
        (by rw [State.withArm_arm_same]; exact fun e => n (hs ▸ e))
        (by rw [State.withArm_arm_same]; simp [countStep, hr, c])
      rw [armParams_withArm, State.withArm_arm_same, pe] at ih
      obtain ⟨i1, i2, i3, i4, i5, i6, i7⟩ := ih
      refine ⟨i1, i2.trans hs, i3.trans hl, i4.trans hc, i5.trans hi, i6, fun k => ?_⟩
      obtain ⟨j1, j2⟩ := i7 k
      refine ⟨j1, Nat.le_trans j2 ?_⟩
      simp [countStep, hr]
    · refine ⟨sound, hs, hl, hc, hi, fun k => absurd k (by simp), fun _ => ?_⟩
      dsimp only
      rw [hr]
      exact ⟨by simp [c], Nat.le_refl _⟩

/-! ## Lists -/

/-- An arm that runs a list: in its list's state, with at least one and at most all of its steps remaining (R133). -/
def runsAt (p : ArmParams) (a : Arm) : Prop :=
  a.list = listOf a.state ∧ a.list ≠ .none ∧ 0 < a.remaining ∧ a.remaining ≤ (listSteps p a.list).length

/-- An arm whose list is gone: no list, no steps, no deadline, no record (R133). -/
def listGone (a : Arm) : Prop := a.list = .none ∧ a.remaining = 0 ∧ a.deadline = none ∧ a.record = .none

/-- The end of a run of steps (R133, R134): the list gone if it ended, else still running. -/
theorem endList_spec (u : ArmUnit) (p : ArmParams) (r : State × Bool) (h : ArmSound p (r.1.arm u)) :
    ArmSound p ((endList u r).1.arm u) ∧ ((endList u r).1.arm u).state = (r.1.arm u).state
      ∧ ((endList u r).1.arm u).cause = (r.1.arm u).cause ∧ ((endList u r).1.arm u).inputs = (r.1.arm u).inputs
      ∧ (r.2 = true → listGone ((endList u r).1.arm u)) ∧ (r.2 = false → (endList u r).1 = r.1) := by
  unfold endList
  cases hr : r.2
  · simp only [Bool.false_eq_true, ↓reduceIte]
    exact ⟨h, trivial, trivial, trivial, fun k => absurd k (by simp), fun _ => trivial⟩
  · simp only [↓reduceIte, State.withArm_arm_same]
    exact ⟨dropList_sound h, rfl, rfl, rfl, fun _ => ⟨rfl, rfl, rfl, rfl⟩, fun k => absurd k (by simp)⟩

/-- A list started (R133): the arm in the list's state; it rests with the list running, or the list is gone. -/
theorem startList_spec (u : ArmUnit) (st : ArmState) (l : ListName) (s : State) (hl : listOf st = l) (nl : l ≠ .none)
    (h : ArmSound (armParams s u) (s.arm u)) (c : (s.arm u).cause = .none) :
    ArmSound (armParams s u) ((startList u st l s).1.arm u) ∧ ((startList u st l s).1.arm u).state = st
      ∧ ((startList u st l s).1.arm u).cause = .none ∧ ((startList u st l s).1.arm u).inputs = (s.arm u).inputs
      ∧ ((startList u st l s).2 = true → listGone ((startList u st l s).1.arm u))
      ∧ ((startList u st l s).2 = false → runsAt (armParams s u) ((startList u st l s).1.arm u)) := by
  have nf : st ≠ .fault := fun e => nl (by rw [← hl, e]; rfl)
  have ns : st ≠ .stowed := fun e => nl (by rw [← hl, e]; rfl)
  obtain ⟨b, hb⟩ : ∃ b, b = loadList (armParams s u) l (s.arm u) := ⟨_, rfl⟩
  have bload : 40 ≤ b.load ∧ b.load ≤ 100 := by rw [hb]; exact h.load
  have bbrush : BrushFormed (armParams s u) b := by rw [hb]; exact ⟨h.brush.still, h.brush.turning, h.brush.trim⟩
  have bcause : b.cause = .none := by rw [hb]; exact c
  obtain ⟨s1, hs1⟩ : ∃ s1, s1 = changeArm u st (s.withArm u b) := ⟨_, rfl⟩
  obtain ⟨e, he⟩ : ∃ e, e = enterState (armParams s u) s.micros (ms s) st b := ⟨_, rfl⟩
  have a1 : s1.arm u = { e with claim := (s1.arm u).claim } := by
    rw [hs1, changeArm_arm]; simp [he]
  have p1 : armParams s1 u = armParams s u := by
    rw [hs1, (changeArm_frame ..).armParams_eq, armParams_withArm]
  obtain ⟨f1, f2, f3, f4, f5, -, -, -, f9, f10, -⟩ := enterState_fields (armParams s u) s.micros (ms s) st b
  have sound1 : ArmSound (armParams s u) (s1.arm u) := by
    have k := enterState_sound (nowUs := s.micros) (nowMs := ms s) bbrush bload bcause nf
    rw [a1, he]
    exact ⟨⟨k.brush.still, k.brush.turning, k.brush.trim⟩, k.load, k.cause, k.stowed, k.window⟩
  have st1 : (s1.arm u).state = st := by rw [a1, he]; exact f1
  have run := runSteps_spec u (listSteps (armParams s u) l) s1 (by rw [p1]; exact sound1) (by rw [st1]; exact ns)
    (by rw [a1, he]; show (enterState ..).remaining = _; rw [f3, hb]; rfl)
  rw [p1] at run
  obtain ⟨r1, r2, r3, r4, r5, -, r7⟩ := run
  obtain ⟨q1, q2, q3, q4, q5, q6⟩ := endList_spec u (armParams s u) (runSteps u (listSteps (armParams s u) l) s1) r1
  have unfolded : startList u st l s =
      (askArm u (endList u (runSteps u (listSteps (armParams s u) l) s1)).1,
        (endList u (runSteps u (listSteps (armParams s u) l) s1)).2) := by rw [hs1, hb]; rfl
  have second : (endList u (runSteps u (listSteps (armParams s u) l) s1)).2 =
      (runSteps u (listSteps (armParams s u) l) s1).2 := rfl
  rw [unfolded]
  dsimp only
  rw [askArm_arm, second]
  refine ⟨q1, q2.trans (r2.trans st1), ?_, ?_, q5, fun k => ?_⟩
  · rw [q3, r4, a1, he]; show (enterState ..).cause = _; rw [f9, bcause]
  · rw [q4, r5, a1, he]; show (enterState ..).inputs = _; rw [f10, hb]; rfl
  · have lst : (s1.arm u).list = l := by rw [a1, he]; show (enterState ..).list = _; rw [f2, hb]; rfl
    have rem : (s1.arm u).remaining = (listSteps (armParams s u) l).length := by
      rw [a1, he]; show (enterState ..).remaining = _; rw [f3, hb]; rfl
    rw [q6 k]
    refine ⟨?_, ?_, (r7 k).1, ?_⟩
    · rw [r3, r2, lst, st1, hl]
    · rw [r3, lst]; exact nl
    · rw [r3, lst, ← rem]; exact (r7 k).2

/-- The parts of a sound arm unit whose list is settled. -/
theorem ArmBounded.ofParts (h : ArmSound p a) (l : (listGone a ∧ listOf a.state = .none) ∨ runsAt p a) : ArmBounded p a := by
  refine ⟨?_, ?_, ?_, ?_, h.brush.still, h.brush.turning, h.brush.trim, h.load, h.cause, h.stowed, h.window⟩
  · rcases l with ⟨g, k⟩ | r
    · rw [g.1, k]
    · exact r.1
  · rcases l with ⟨g, -⟩ | r
    · rw [g.2.1]; exact Nat.zero_le _
    · exact r.2.2.2
  · rcases l with ⟨g, -⟩ | r
    · exact fun n => absurd g.1 n
    · exact fun _ => r.2.2.1
  · rcases l with ⟨g, -⟩ | r
    · exact fun _ => ⟨g.2.2.1, g.2.2.2⟩
    · exact fun n => absurd n r.2.1

/-- A bounded arm unit is sound. -/
theorem ArmBounded.sound (h : ArmBounded p a) : ArmSound p a :=
  ⟨⟨h.still, h.turning, h.trim⟩, h.load, h.cause, h.stowed, h.window⟩

/-- An arm whose list is gone comes to rest in a state that runs none (R129, R131, R132). -/
theorem restIn_bounded (u : ArmUnit) (st : ArmState) (s : State) (h : ArmSound (armParams s u) (s.arm u))
    (g : listGone (s.arm u)) (c : (s.arm u).cause = .none) (nl : listOf st = .none) (nf : st ≠ .fault) :
    ArmBounded (armParams s u) ((restIn u st s).arm u) ∧ ((restIn u st s).arm u).state = st
      ∧ ((restIn u st s).arm u).cause = .none := by
  obtain ⟨f1, f2, f3, f4, f5, -, -, -, f9, -⟩ := enterState_fields (armParams s u) s.micros (ms s) st (s.arm u)
  have k := enterState_sound (p := armParams s u) (nowUs := s.micros) (nowMs := ms s) h.brush h.load c nf
  rw [restIn_arm, changeArm_arm]
  refine ⟨ArmBounded.ofParts ⟨⟨k.brush.still, k.brush.turning, k.brush.trim⟩, k.load, k.cause, k.stowed, k.window⟩
    (.inl ⟨⟨?_, ?_, ?_, ?_⟩, ?_⟩), f1, f9.trans c⟩
  · exact f2.trans g.1
  · exact f3.trans g.2.1
  · exact f4.trans g.2.2.1
  · exact f5.trans g.2.2.2
  · show listOf (enterState ..).state = _; rw [f1, nl]

/-- What every way into a list leaves (R128–R132, R134): the arm within its bounds, no fault cause, in one of the named
states. -/
def ledTo (u : ArmUnit) (s t : State) (l : List ArmState) : Prop :=
  ArmBounded (armParams s u) (t.arm u) ∧ (t.arm u).state ∈ l ∧ (t.arm u).cause = .none

/-- A list that rests in its state when it does not end, and goes on to a rest state when it does. -/
theorem startList_ledTo (u : ArmUnit) (st rest : ArmState) (l : ListName) (s : State) (hl : listOf st = l) (nl : l ≠ .none)
    (nr : listOf rest = .none) (nf : rest ≠ .fault) (h : ArmSound (armParams s u) (s.arm u)) (c : (s.arm u).cause = .none) :
    ledTo u s (if (startList u st l s).2 then restIn u rest (startList u st l s).1 else (startList u st l s).1) [st, rest] := by
  obtain ⟨r1, r2, r3, -, r5, r6⟩ := startList_spec u st l s hl nl h c
  have pe := (startList_frame u st l s).armParams_eq u
  cases e : (startList u st l s).2
  · exact ⟨ArmBounded.ofParts r1 (.inr (r6 e)), by simp [r2], r3⟩
  · have k := restIn_bounded u rest (startList u st l s).1 (by rw [pe]; exact r1) (r5 e) r3 nr nf
    rw [pe] at k
    exact ⟨k.1, by simp [k.2.1], k.2.2⟩

theorem startRetract_spec (u : ArmUnit) (s : State) (h : ArmSound (armParams s u) (s.arm u)) (c : (s.arm u).cause = .none) :
    ledTo u s (startRetract u s) [.retracting, .stowed] :=
  startList_ledTo u .retracting .stowed .retract s rfl (by decide) rfl (by decide) h c

theorem startDeploy_spec (u : ArmUnit) (s : State) (h : ArmSound (armParams s u) (s.arm u)) (c : (s.arm u).cause = .none) :
    ledTo u s (startDeploy u s) [.deploying, .sweeping] :=
  startList_ledTo u .deploying .sweeping .deploy s rfl (by decide) rfl (by decide) h c

theorem startResume_spec (u : ArmUnit) (s : State) (h : ArmSound (armParams s u) (s.arm u)) (c : (s.arm u).cause = .none) :
    ledTo u s (startResume u s) [.resuming, .sweeping] :=
  startList_ledTo u .resuming .sweeping .resume s rfl (by decide) rfl (by decide) h c

theorem finishYield_spec (u : ArmUnit) (s : State) (h : ArmSound (armParams s u) (s.arm u)) (g : listGone (s.arm u))
    (c : (s.arm u).cause = .none) : ledTo u s (finishYield u s) [.yielded, .retracting, .stowed] := by
  unfold finishYield
  split
  · obtain ⟨k1, k2, k3⟩ := startRetract_spec u s h c
    exact ⟨k1, List.mem_cons_of_mem _ k2, k3⟩
  · obtain ⟨k1, k2, k3⟩ := restIn_bounded u .yielded s h g c rfl (by decide)
    exact ⟨k1, by simp [k2], k3⟩

theorem startYield_spec (u : ArmUnit) (s : State) (h : ArmSound (armParams s u) (s.arm u)) (c : (s.arm u).cause = .none) :
    ledTo u s (startYield u s) [.yielding, .yielded, .retracting, .stowed] := by
  obtain ⟨r1, r2, r3, -, r5, r6⟩ := startList_spec u .yielding .yield s rfl (by decide) h c
  have pe := (startList_frame u .yielding .yield s).armParams_eq u
  unfold startYield
  dsimp only
  cases e : (startList u .yielding .yield s).2
  · exact ⟨ArmBounded.ofParts r1 (.inr (r6 e)), by simp [r2], r3⟩
  · obtain ⟨k1, k2, k3⟩ := finishYield_spec u (startList u .yielding .yield s).1 (by rw [pe]; exact r1) (r5 e) r3
    rw [pe] at k1
    exact ⟨k1, List.mem_cons_of_mem _ k2, k3⟩

/-- A list that is done takes the arm to the end state of R129, R131 or R132. -/
theorem finishList_spec (u : ArmUnit) (l : ListName) (s : State) (h : ArmSound (armParams s u) (s.arm u))
    (g : listGone (s.arm u)) (c : (s.arm u).cause = .none) (n : l ≠ .none) :
    ledTo u s (finishList u l s) [.sweeping, .stowed, .yielded, .retracting] := by
  cases l
  · exact absurd rfl n
  · obtain ⟨k1, k2, k3⟩ := restIn_bounded u .sweeping s h g c rfl (by decide)
    exact ⟨k1, by rw [show finishList u .deploy s = restIn u .sweeping s from rfl, k2]; decide, k3⟩
  · obtain ⟨k1, k2, k3⟩ := restIn_bounded u .stowed s h g c rfl (by decide)
    exact ⟨k1, by rw [show finishList u .retract s = restIn u .stowed s from rfl, k2]; decide, k3⟩
  · obtain ⟨k1, k2, k3⟩ := finishYield_spec u s h g c
    refine ⟨k1, ?_, k3⟩
    simp only [List.mem_cons, List.not_mem_nil, or_false] at k2 ⊢
    rcases k2 with e | e | e
    · exact .inr (.inr (.inl e))
    · exact .inr (.inr (.inr e))
    · exact .inr (.inl e)
  · obtain ⟨k1, k2, k3⟩ := restIn_bounded u .sweeping s h g c rfl (by decide)
    exact ⟨k1, by rw [show finishList u .resume s = restIn u .sweeping s from rfl, k2]; decide, k3⟩

/-- A wait step that completes (R134) keeps the arm within its bounds: its state as it was, or an end state of its list. -/
theorem completeStep_spec (u : ArmUnit) (s : State) (h : ArmBounded (armParams s u) (s.arm u)) (n : (s.arm u).list ≠ .none) :
    ledTo u s (completeStep u s) [(s.arm u).state, .sweeping, .stowed, .yielded, .retracting] := by
  have run : listOf (s.arm u).state ≠ .none := by rw [← h.list]; exact n
  have ns : (s.arm u).state ≠ .stowed := fun e => run (by rw [e]; rfl)
  have nf : (s.arm u).state ≠ .fault := fun e => run (by rw [e]; rfl)
  have c : (s.arm u).cause = .none := Classical.byContradiction fun k => nf (h.cause.2 k)
  obtain ⟨s1, hs1⟩ : ∃ s1, s1 = s.withArm u (countStep (s.arm u)) := ⟨_, rfl⟩
  have a1 : s1.arm u = countStep (s.arm u) := by rw [hs1, State.withArm_arm_same]
  have p1 : armParams s1 u = armParams s u := by rw [hs1, armParams_withArm]
  have len : (s1.arm u).remaining = (stepsLeft (armParams s1 u) (s1.arm u)).length := by
    have := h.remaining
    rw [p1, a1, stepsLeft, List.length_drop]
    simp only [countStep]
    omega
  have r := runSteps_spec u (stepsLeft (armParams s1 u) (s1.arm u)) s1
    (by rw [p1, a1]; exact countStep_sound h.sound) (by rw [a1]; exact ns) len
  obtain ⟨q, hq⟩ : ∃ q, q = runSteps u (stepsLeft (armParams s1 u) (s1.arm u)) s1 := ⟨_, rfl⟩
  have pq : armParams (endList u q).1 u = armParams s u := by
    rw [(endList_frame u q).armParams_eq, hq, (runSteps_frame ..).armParams_eq, p1]
  rw [← hq, p1, a1] at r
  obtain ⟨r1, r2, r3, r4, -, -, r7⟩ := r
  obtain ⟨e1, e2, e3, -, e5, e6⟩ := endList_spec u (armParams s u) q r1
  have unfolded : completeStep u s =
      if (endList u q).2 then finishList u (s.arm u).list (endList u q).1 else (endList u q).1 := by
    rw [hq, hs1]; rfl
  have second : (endList u q).2 = q.2 := rfl
  rw [unfolded, second]
  cases e : q.2
  · simp only [Bool.false_eq_true, ↓reduceIte]
    rw [e6 e]
    refine ⟨ArmBounded.ofParts r1 (.inr ⟨?_, ?_, (r7 e).1, ?_⟩), by simp [r2, countStep], r4.trans c⟩
    · rw [r3, r2]; exact h.list
    · rw [r3]; exact n
    · rw [r3]
      refine Nat.le_trans (r7 e).2 ?_
      exact Nat.le_trans (Nat.sub_le ..) h.remaining
  · simp only [↓reduceIte]
    obtain ⟨k1, k2, k3⟩ := finishList_spec u (s.arm u).list (endList u q).1 (by rw [pq]; exact e1) (e5 e)
      (e3.trans (r4.trans c)) n
    rw [pq] at k1
    exact ⟨k1, List.mem_cons_of_mem _ k2, k3⟩

/-- Entry to FAULT (R140): the list gone, the lines at the hold set, the brush at rest, the cause recorded. -/
theorem faultArm_spec (u : ArmUnit) (c : ArmFault) (s : State) (n : c ≠ .none) (l : 40 ≤ (s.arm u).load ∧ (s.arm u).load ≤ 100) :
    ArmBounded (armParams s u) ((faultArm u c s).arm u) ∧ ((faultArm u c s).arm u).state = .fault
      ∧ ((faultArm u c s).arm u).cause = c ∧ ((faultArm u c s).arm u).levels = holdLevels s.safe.hold (armParams s u)
      ∧ ((faultArm u c s).arm u).brushOnRun = false ∧ ((faultArm u c s).arm u).load = (s.arm u).load := by
  unfold faultArm
  dsimp only
  rw [askArm_arm]
  unfold reformArmClaim
  rw [(checkUrgency_frame _).arm]
  simp only [setArmClaim, State.withArm_arm_same]
  refine ⟨ArmBounded.ofParts ⟨⟨fun _ => ⟨rfl, rfl, rfl⟩, fun k => absurd k (by simp [brushRuns, stopBrush, setTarget]), ?_⟩, l, ?_, ?_, ?_⟩
    (.inl ⟨⟨rfl, rfl, rfl, rfl⟩, rfl⟩), by simp [stopBrush, setTarget, dropList]⟩
  · simp [stopBrush]
  · exact ⟨fun _ => n, fun _ => rfl⟩
  · exact fun e => by cases e
  · simp

/-- A fault event (R139, R140): nothing, or the entry to FAULT. -/
theorem faultEvent_cases (u : ArmUnit) (c : ArmFault) (s : State) :
    faultEvent u c s = s ∨ (armPresent s u = true ∧ armActive (s.arm u) = true ∧ faultEvent u c s = faultArm u c s) := by
  unfold faultEvent
  split
  · rename_i h
    simp only [Bool.and_eq_true] at h
    exact .inr ⟨h.1, h.2, rfl⟩
  · exact .inl rfl

end Sys2Proof.Machine
end

