-- ==== Sys2Proof/Laws/Image.lean ====
section
/-! SUPPORT. The image's fields as bytes of the image (R197, R205). -/

namespace Sys2Proof.Machine

theorem imgByte_eq (m : Image) {n : Nat} (h : n < 1024) : imgByte m n = m[n].toNat := by
  have k : n < m.toList.length := by simpa using h
  show (m.toList.getD n 0).toNat = _
  rw [List.getD_eq_getElem?_getD, List.getElem?_eq_getElem k]
  rfl

/-- A two-byte field is its bytes side by side, the first high (R205). -/
theorem word_of_bytes (a b : Byte) : BitVec.ofNat 16 (a.toNat * 256 + b.toNat) = a ++ b := by
  apply BitVec.eq_of_toNat_eq
  have ha := a.isLt
  have hb := b.isLt
  rw [BitVec.toNat_append, BitVec.toNat_ofNat, Nat.shiftLeft_eq, Nat.mul_comm a.toNat (2 ^ 8),
    ← Nat.two_pow_add_eq_or_of_lt hb]
  omega

theorem imgCrc_eq (m : Image) : imgCrc m = m[1022] ++ m[1023] := by
  unfold imgCrc imgWord
  rw [imgByte_eq m (by omega), imgByte_eq m (by omega)]
  exact word_of_bytes ..

theorem crcAgrees_iff (m : Image) : crcAgrees m = true ↔ crc16 (m.toList.take 1022) = m[1022] ++ m[1023] := by
  unfold crcAgrees
  rw [imgCrc_eq]
  exact beq_iff_eq

end Sys2Proof.Machine
end

