-- ==== Sys2Proof/Laws/Lists.lean ====
section
/-! SUPPORT. The lists of the part: what an insertion, a displacement or an append leaves. -/

namespace Sys2Proof.Machine

/-! ## Insertion by header (R53, R57) -/

theorem insertNew_perm (e : TxEntry) (l : List TxEntry) : (insertNew e l).Perm (e :: l) := by
  induction l with
  | nil => exact .refl _
  | cons x rest ih =>
    unfold insertNew
    split
    · exact .refl _
    · exact (ih.cons x).trans (.swap e x rest)

theorem insertReturned_perm (e : TxEntry) (l : List TxEntry) : (insertReturned e l).Perm (e :: l) := by
  induction l with
  | nil => exact .refl _
  | cons x rest ih =>
    unfold insertReturned
    split
    · exact .refl _
    · exact (ih.cons x).trans (.swap e x rest)

@[simp] theorem mem_insertNew {e x : TxEntry} {l : List TxEntry} : x ∈ insertNew e l ↔ x = e ∨ x ∈ l := by
  rw [(insertNew_perm e l).mem_iff, List.mem_cons]

@[simp] theorem mem_insertReturned {e x : TxEntry} {l : List TxEntry} : x ∈ insertReturned e l ↔ x = e ∨ x ∈ l := by
  rw [(insertReturned_perm e l).mem_iff, List.mem_cons]

@[simp] theorem insertNew_length (e : TxEntry) (l : List TxEntry) : (insertNew e l).length = l.length + 1 :=
  (insertNew_perm e l).length_eq

@[simp] theorem insertReturned_length (e : TxEntry) (l : List TxEntry) : (insertReturned e l).length = l.length + 1 :=
  (insertReturned_perm e l).length_eq

/-- Entries in header order, lowest first (R53). -/
def inOrder (l : List TxEntry) : Prop := l.Pairwise fun a b => a.header.toNat ≤ b.header.toNat

theorem insertNew_inOrder {e : TxEntry} {l : List TxEntry} (h : inOrder l) : inOrder (insertNew e l) := by
  unfold inOrder at *
  induction l with
  | nil => simp [insertNew]
  | cons x rest ih =>
    rw [List.pairwise_cons] at h
    unfold insertNew
    split
    · rename_i lt
      rw [List.pairwise_cons]
      refine ⟨fun b hb => ?_, List.pairwise_cons.2 h⟩
      rcases List.mem_cons.1 hb with rfl | hb
      · omega
      · have := h.1 b hb; omega
    · rw [List.pairwise_cons]
      refine ⟨fun b hb => ?_, ih h.2⟩
      rcases mem_insertNew.1 hb with rfl | hb
      · omega
      · exact h.1 b hb

theorem insertReturned_inOrder {e : TxEntry} {l : List TxEntry} (h : inOrder l) : inOrder (insertReturned e l) := by
  unfold inOrder at *
  induction l with
  | nil => simp [insertReturned]
  | cons x rest ih =>
    rw [List.pairwise_cons] at h
    unfold insertReturned
    split
    · rename_i le
      rw [List.pairwise_cons]
      refine ⟨fun b hb => ?_, List.pairwise_cons.2 h⟩
      rcases List.mem_cons.1 hb with rfl | hb
      · omega
      · have := h.1 b hb; omega
    · rw [List.pairwise_cons]
      refine ⟨fun b hb => ?_, ih h.2⟩
      rcases mem_insertReturned.1 hb with rfl | hb
      · omega
      · exact h.1 b hb

/-! ## Displacement (R58, R59, R22) -/

/-- No entry to displace means no event in the list. -/
theorem highestEvent_none {l : List TxEntry} (h : highestEvent l = none) : ∀ y ∈ l, isEvent y = false := by
  induction l with
  | nil => simp
  | cons a rest ih =>
    unfold highestEvent at h
    split at h
    · split at h <;> cases h
    · rename_i hr
      split at h
      · cases h
      · rename_i na
        intro y hy
        rcases List.mem_cons.1 hy with rfl | hy
        · simpa using na
        · exact ih hr y hy

/-- The entry a HALT displaces: an event of the list at its place, and no event after it in header order (R58). -/
theorem highestEvent_some {l : List TxEntry} {i : Nat} {x : TxEntry} (h : highestEvent l = some (i, x)) :
    l[i]? = some x ∧ isEvent x = true ∧ ∀ y ∈ l, isEvent y = true → y.header.toNat ≤ x.header.toNat := by
  induction l generalizing i x with
  | nil => simp [highestEvent] at h
  | cons a rest ih =>
    unfold highestEvent at h
    split at h
    · rename_i j y hr
      obtain ⟨hy, ev, top⟩ := ih hr
      split at h
      · rename_i c
        simp only [Option.some.injEq, Prod.mk.injEq] at h
        obtain ⟨rfl, rfl⟩ := h
        simp only [Bool.and_eq_true, decide_eq_true_eq] at c
        refine ⟨rfl, c.1, fun z hz ez => ?_⟩
        rcases List.mem_cons.1 hz with rfl | hz
        · exact Nat.le_refl _
        · have := top z hz ez; omega
      · rename_i c
        simp only [Option.some.injEq, Prod.mk.injEq] at h
        obtain ⟨rfl, rfl⟩ := h
        simp only [Bool.and_eq_true, decide_eq_true_eq, not_and, Nat.not_lt] at c
        refine ⟨by simpa using hy, ev, fun z hz ez => ?_⟩
        rcases List.mem_cons.1 hz with rfl | hz
        · exact c ez
        · exact top z hz ez
    · rename_i hr
      split at h
      · rename_i ea
        simp only [Option.some.injEq, Prod.mk.injEq] at h
        obtain ⟨rfl, rfl⟩ := h
        refine ⟨rfl, ea, fun z hz ez => ?_⟩
        rcases List.mem_cons.1 hz with rfl | hz
        · exact Nat.le_refl _
        · rw [highestEvent_none hr z hz] at ez; cases ez
      · cases h

/-- The displacement of the oldest entry that is not a HALT_IN: one entry leaves, the others keep their order (R22). -/
theorem displaceOldest_some {l m : List EventEntry} (h : displaceOldest l = some m) :
    ∃ before x after, l = before ++ x :: after ∧ m = before ++ after ∧ x.label ≠ .haltIn
      ∧ ∀ y ∈ before, y.label = .haltIn := by
  induction l generalizing m with
  | nil => cases h
  | cons a rest ih =>
    unfold displaceOldest at h
    split at h
    · rename_i ha
      cases hr : displaceOldest rest with
      | none => simp [hr] at h
      | some r =>
        simp only [hr, Option.map_some, Option.some.injEq] at h
        obtain ⟨b, x, c, rfl, rfl, hx, hb⟩ := ih hr
        refine ⟨a :: b, x, c, rfl, h.symm, hx, ?_⟩
        intro y hy
        rcases List.mem_cons.1 hy with rfl | hy
        · exact ha
        · exact hb y hy
    · rename_i ha
      simp only [Option.some.injEq] at h
      exact ⟨[], a, rest, rfl, h.symm, ha, by simp⟩

theorem displaceOldest_none {l : List EventEntry} : displaceOldest l = none ↔ ∀ y ∈ l, y.label = .haltIn := by
  induction l with
  | nil => simp [displaceOldest]
  | cons a rest ih =>
    unfold displaceOldest
    split
    · rename_i ha
      simp [ih, ha]
    · rename_i ha
      simp [ha]

theorem displaceOldest_length {l m : List EventEntry} (h : displaceOldest l = some m) : m.length + 1 = l.length := by
  obtain ⟨b, x, c, rfl, rfl, -, -⟩ := displaceOldest_some h
  simp; omega

/-- An append keeps the event queue within its 16 places (R22). -/
theorem appendEvent_length (e : EventEntry) {p : Picture} (h : p.events.length ≤ 16) : (appendEvent e p).events.length ≤ 16 := by
  unfold appendEvent
  split
  · simp; omega
  · dsimp only
    split
    · split
      · rename_i l hl
        have := displaceOldest_length hl
        simp; omega
      · exact h
    · exact h

theorem mem_appendEvent {e x : EventEntry} {p : Picture} (h : x ∈ (appendEvent e p).events) : x = e ∨ x ∈ p.events := by
  unfold appendEvent at h
  split at h
  · simpa [or_comm] using h
  · dsimp only at h
    split at h
    · split at h
      · rename_i l hl
        obtain ⟨b, y, c, hb, rfl, -, -⟩ := displaceOldest_some hl
        rw [hb]
        simp only [List.append_assoc, List.mem_append, List.mem_cons, List.not_mem_nil, or_false] at h ⊢
        rcases h with h | h | h
        · exact .inr (.inl h)
        · exact .inr (.inr (.inr h))
        · exact .inl h
      · exact .inr h
    · exact .inr h

/-- A frame or echo copy keeps the holding queue within its 4 places (R34). -/
theorem holdFrame_length (f : HeldFrame) {l : Link} (h : l.holding.length ≤ 4) : (holdFrame f l).holding.length ≤ 4 := by
  unfold holdFrame
  split
  · simp; omega
  · exact h

end Sys2Proof.Machine
end

