-- ==== Sys2Proof/Laws/PerInstr.lean ====
section
/-! SUPPORT. One statement for each command: which of its operands can spell an event. Every operand but a frame's characters is
in range by its type. -/

namespace Sys2Proof.Laws.WellFormed

/-- Every form of the command is well formed, but for a completed frame, which is well formed exactly when it has the 5 + L
characters that its own second character declares (R27, R30). -/
def Statement (i : Instr) : Prop :=
  i.wellFormed = true ∨ ∃ chars, i = .receiveFrameComplete chars
    ∧ (i.wellFormed = true ↔ chars.length = 5 + (chars.getD 1 0).toNat % 16)

theorem stationReset (straps : BitVec 4) : Statement (.stationReset straps) := .inl rfl

theorem imageReadFailed : Statement .imageReadFailed := .inl rfl

theorem imageReadComplete (image : Vector Byte 1024) (first : Vector Permille 4) : Statement (.imageReadComplete image first) := .inl rfl

theorem joinTimerExpiry : Statement .joinTimerExpiry := .inl rfl

theorem configBadTimerExpiry : Statement .configBadTimerExpiry := .inl rfl

theorem idleSeen : Statement .idleSeen := .inl rfl

theorem framingError : Statement .framingError := .inl rfl

theorem receiveFrameComplete (chars : List Byte) : Statement (.receiveFrameComplete chars) :=
  .inr ⟨chars, rfl, by simp [Instr.wellFormed, frameComplete, declaredLength]⟩

theorem transmitStart : Statement .transmitStart := .inl rfl

theorem arbitrationWon : Statement .arbitrationWon := .inl rfl

theorem arbitrationLost : Statement .arbitrationLost := .inl rfl

theorem transmitFault : Statement .transmitFault := .inl rfl

theorem abortEnd : Statement .abortEnd := .inl rfl

theorem transmitSuccess : Statement .transmitSuccess := .inl rfl

theorem muteTimerExpiry : Statement .muteTimerExpiry := .inl rfl

theorem filterPass : Statement .filterPass := .inl rfl

theorem storeComplete : Statement .storeComplete := .inl rfl

theorem slotDeadline (slot : Fin 32) : Statement (.slotDeadline slot) := .inl rfl

theorem eventHandlerTake : Statement .eventHandlerTake := .inl rfl

theorem periodTimerExpiry (topic : CyclicTopic) : Statement (.periodTimerExpiry topic) := .inl rfl

theorem drivePeriodExpiry : Statement .drivePeriodExpiry := .inl rfl

theorem pulseEdge (ch : Fin 6) : Statement (.pulseEdge ch) := .inl rfl

theorem missingDeadline (ch : Fin 6) : Statement (.missingDeadline ch) := .inl rfl

theorem stopDeadline (ch : Fin 6) : Statement (.stopDeadline ch) := .inl rfl

theorem watchDeadline (ch : Fin 6) : Statement (.watchDeadline ch) := .inl rfl

theorem analogConversion (ai : Fin 4) (reading : Permille) : Statement (.analogConversion ai reading) := .inl rfl

theorem switchSample (si : Fin 8) (low : Bool) : Statement (.switchSample si low) := .inl rfl

theorem armPeriodExpiry (unit : ArmUnit) : Statement (.armPeriodExpiry unit) := .inl rfl

theorem waitTimeComplete (unit : ArmUnit) : Statement (.waitTimeComplete unit) := .inl rfl

theorem stepDeadline (unit : ArmUnit) : Statement (.stepDeadline unit) := .inl rfl

theorem loadWindowExpiry (unit : ArmUnit) : Statement (.loadWindowExpiry unit) := .inl rfl

theorem waterPeriodExpiry : Statement .waterPeriodExpiry := .inl rfl

theorem consolePeriodExpiry : Statement .consolePeriodExpiry := .inl rfl

theorem resetHoldTimerExpiry : Statement .resetHoldTimerExpiry := .inl rfl

theorem lampDeadline : Statement .lampDeadline := .inl rfl

theorem frameBegins : Statement .frameBegins := .inl rfl

theorem resetAsserted : Statement .resetAsserted := .inl rfl

end Sys2Proof.Laws.WellFormed
end

