-- ==== Sys2Proof/Laws/Publication.lean ====
section
/-! SUPPORT. The Publication Scheduler's shared operations (spec/03): where an entry goes, what a request leaves, and which
sequence numbers move. -/

namespace Sys2Proof.Machine

/-! ## Places in the list (R53, R57) -/

theorem insertNew_placed {e : TxEntry} {l : List TxEntry} (h : HeaderOrder l) : PlacedBehind e l (insertNew e l) := by
  induction l with
  | nil => exact ⟨[], [], rfl, rfl, by simp, by simp⟩
  | cons x rest ih =>
    have ⟨hx, hr⟩ := List.pairwise_cons.1 h
    unfold insertNew
    split
    · rename_i lt
      refine ⟨[], x :: rest, rfl, rfl, by simp, fun y hy => ?_⟩
      rcases List.mem_cons.1 hy with rfl | hy
      · exact lt
      · exact Nat.lt_of_lt_of_le lt (hx y hy)
    · rename_i ge
      obtain ⟨before, after, h1, h2, h3, h4⟩ := ih hr
      refine ⟨x :: before, after, by rw [h1]; rfl, by rw [h2]; rfl, fun y hy => ?_, h4⟩
      rcases List.mem_cons.1 hy with rfl | hy
      · exact Nat.le_of_not_lt ge
      · exact h3 y hy

theorem insertReturned_placed {e : TxEntry} {l : List TxEntry} (h : HeaderOrder l) :
    PlacedAhead e l (insertReturned e l) := by
  induction l with
  | nil => exact ⟨[], [], rfl, rfl, by simp, by simp⟩
  | cons x rest ih =>
    have ⟨hx, hr⟩ := List.pairwise_cons.1 h
    unfold insertReturned
    split
    · rename_i le
      refine ⟨[], x :: rest, rfl, rfl, by simp, fun y hy => ?_⟩
      rcases List.mem_cons.1 hy with rfl | hy
      · exact le
      · exact Nat.le_trans le (hx y hy)
    · rename_i gt
      obtain ⟨before, after, h1, h2, h3, h4⟩ := ih hr
      refine ⟨x :: before, after, by rw [h1]; rfl, by rw [h2]; rfl, fun y hy => ?_, h4⟩
      rcases List.mem_cons.1 hy with rfl | hy
      · exact Nat.lt_of_not_le gt
      · exact h3 y hy

theorem anyPending_iff {h : Word16} {l : List TxEntry} : l.any (isPendingCyclic h) = true ↔ PendingCyclic h l := by
  simp [isPendingCyclic, PendingCyclic]

/-- What a frame's return leaves (R57). -/
theorem returnFrame_spec (e : TxEntry) {s : State} (h : HeaderOrder s.pub.list) :
    ∃ l, Returned e s.pub.list l ∧ returnFrame e s = s.withPub { s.pub with list := l } := by
  unfold returnFrame Returned
  cases e.kind with
  | event => exact ⟨_, insertReturned_placed h, rfl⟩
  | cyclic =>
    by_cases p : s.pub.list.any (isPendingCyclic e.header) = true
    · exact ⟨_, ⟨fun _ => rfl, fun n => absurd (anyPending_iff.1 p) n⟩, by simp [p]; rfl⟩
    · exact ⟨_, ⟨fun q => absurd (anyPending_iff.2 q) p, fun _ => insertNew_placed h⟩, by simp [p]⟩

/-! ## Headers and records (R46, R48, R208) -/

theorem headerLength_topicHeader (t : Topic) (a : BitVec 4) : headerLength (topicHeader t a) = topicLength t := by
  revert a; cases t <;> decide

theorem headerTopic_topicHeader (t : Topic) (a : BitVec 4) : headerTopic (topicHeader t a) = topicNumber t := by
  revert a; cases t <;> decide

theorem headerSource_topicHeader (t : Topic) (a : BitVec 4) : headerSource (topicHeader t a) = a := by
  revert a; cases t <;> decide

theorem cyclicTopic_of_header {t v : CyclicTopic} {a : BitVec 4}
    (h : topicHeader (cyclicTopic t) a = topicHeader (cyclicTopic v) a) : t = v := by
  have k := congrArg headerTopic h
  rw [headerTopic_topicHeader, headerTopic_topicHeader] at k
  revert k; cases t <;> cases v <;> decide

theorem paceRecord_length (s : State) : (paceRecord s).length = 5 := by
  unfold paceRecord; split <;> rfl

/-- Every cyclic record is as long as its topic's header declares. -/
theorem cyclicRecord_length (s : State) (t : CyclicTopic) : (cyclicRecord s t).length = topicLength (cyclicTopic t) := by
  cases t
  case pace => exact paceRecord_length s
  all_goals rfl

theorem reportRecord_length (s : State) (what : Nat) : (reportRecord s what).length = topicLength .report := by
  unfold reportRecord; split <;> rfl

/-- A cyclic record reads the duties' own state only. -/
theorem cyclicRecord_withPub (s : State) (p : Publication) (t : CyclicTopic) :
    cyclicRecord (s.withPub p) t = cyclicRecord s t := by
  cases t <;> rfl

/-! ## Requests (R54–R60) -/

theorem requestCyclic_silent (t : CyclicTopic) {s : State} (h : s.loader.station ≠ .operating) : requestCyclic t s = s := by
  simp [requestCyclic, operating, h]

theorem requestCyclic_unpublished (t : CyclicTopic) {s : State} (h : publishes s.duties t = false) :
    requestCyclic t s = s := by
  simp [requestCyclic, h]

/-- An urgency check does nothing or asks for PACE (R55). -/
theorem checkUrgency_cases (s : State) : checkUrgency s = s ∨ checkUrgency s = requestCyclic .pace s := by
  unfold checkUrgency
  split
  · exact .inr rfl
  · exact .inl rfl

/-- A cyclic publication moves its own topic's number only (R56). -/
theorem publishCyclic_seq (t : CyclicTopic) (s : State) :
    (publishCyclic t s).pub.nextSeq = (advanceSeq s.pub (cyclicTopic t)).nextSeq := rfl

theorem requestCyclic_seq (t : CyclicTopic) (s : State) {i : Fin 11} (h : topicIndex (cyclicTopic t) ≠ i) :
    (requestCyclic t s).pub.nextSeq[i] = s.pub.nextSeq[i] := by
  unfold requestCyclic
  split
  · show ((s.pub.nextSeq.set (topicIndex (cyclicTopic t)) _))[i] = _
    have : (topicIndex (cyclicTopic t)).val ≠ i.val := fun k => h (Fin.ext k)
    simp [Vector.getElem_set_ne, this]
  · rfl

theorem checkUrgency_seq (s : State) {i : Fin 11} (h : topicIndex .pace ≠ i) :
    (checkUrgency s).pub.nextSeq[i] = s.pub.nextSeq[i] := by
  rcases checkUrgency_cases s with k | k
  · rw [k]
  · rw [k]; exact requestCyclic_seq .pace s h

/-- An event with a place free joins the list at its place (R56, R58). -/
theorem enqueueEvent_free (e : TxEntry) {s : State} (h : placesTaken s < 4) :
    enqueueEvent e s = s.withPub { s.pub with list := insertNew e s.pub.list } := by
  simp [enqueueEvent, h]

/-- No event request moves a sequence number but its own topic's, which moves by 1 in JOINING and OPERATING (R56, R59). -/
theorem enqueueEvent_seq (e : TxEntry) (s : State) : (enqueueEvent e s).pub.nextSeq = s.pub.nextSeq := by
  unfold enqueueEvent; split <;> rfl

theorem deferEvent_seq (e : TxEntry) (s : State) : (deferEvent e s).pub.nextSeq = s.pub.nextSeq := by
  unfold deferEvent; split <;> rfl

theorem requestEvent_seq (t : Topic) (p : List Byte) {s : State}
    (h : s.loader.station = .operating ∨ s.loader.station = .joining) :
    (requestEvent t p s).pub.nextSeq = (advanceSeq s.pub t).nextSeq := by
  unfold requestEvent
  rcases h with h | h <;> rw [h]
  · exact enqueueEvent_seq _ _
  · exact deferEvent_seq _ _

theorem requestEvent_silent (t : Topic) (p : List Byte) {s : State}
    (h : s.loader.station = .configuring ∨ s.loader.station = .configFault) : requestEvent t p s = s := by
  unfold requestEvent
  rcases h with h | h <;> rw [h]

/-- A request on an OPERATING station with an event place free (R48, R56, R58). -/
theorem requestEvent_free (t : Topic) (p : List Byte) {s : State} (h : s.loader.station = .operating)
    (f : placesTaken s < 4) : requestEvent t p s = s.withPub { s.pub with
      list := insertNew (eventEntry s t p) s.pub.list
      nextSeq := s.pub.nextSeq.set (topicIndex t) (s.pub.nextSeq[topicIndex t] + 1) } := by
  have g : placesTaken (s.withPub (advanceSeq s.pub t)) < 4 := f
  unfold requestEvent
  rw [h]
  exact enqueueEvent_free _ g

/-! ## The NOTICE owed for a freed place (R58) -/

/-- A freed place leaves the station as it is, builds the NOTICE, or leaves it owed to the end of the instant. -/
theorem freePlace_cases (s : State) : freePlace s = s ∨ freePlace s = reportDropped s
    ∨ freePlace s = s.withPub { s.pub with noticeDue := true } := by
  unfold freePlace
  split
  · split
    · exact .inr (.inl rfl)
    · exact .inr (.inr rfl)
  · exact .inl rfl

/-- With a place free the NOTICE is built, its count goes to 0, and nothing else of the scheduler moves (R56, R58). -/
theorem reportDropped_free {s : State} (o : s.loader.station = .operating) (d : 0 < s.pub.dropped) (f : placesTaken s < 4) :
    reportDropped s = s.withPub { s.pub with
      list := insertNew (eventEntry s .notice (noticeRecord .publicationDropped s.pub.dropped s.pub.lastDropped)) s.pub.list
      nextSeq := s.pub.nextSeq.set (topicIndex .notice) (s.pub.nextSeq[topicIndex .notice] + 1)
      dropped := 0 } := by
  simp only [reportDropped, operating, o, d, f]
  rfl

/-- Nothing owed at this instant, nothing settled. -/
theorem settleNotice_idle {s : State} (h : s.pub.noticeDue = false) : settleNotice s = s := by
  simp [settleNotice, h]

end Sys2Proof.Machine
end

