-- ==== Sys2Proof/Laws/Safe.lean ====
section
/-! SUPPORT. Safe Control's shared operations (spec/10): what a cause report and a release do to the cause set, and the claims that
every duty holds afterwards. -/

namespace Sys2Proof.Machine

/-! ## Causes (R182, R183) -/

theorem isSafe_iff (s : State) : isSafe s = true ↔ ∃ c, hasCause s.safe.causes c = true := by
  constructor
  · intro h
    obtain ⟨c, -, hc⟩ := List.any_eq_true.1 h
    exact ⟨c, hc⟩
  · rintro ⟨c, hc⟩
    exact List.any_eq_true.2 ⟨c, by cases c <;> simp [allCauses], hc⟩

theorem hasCause_addCause (set : CauseSet) (c d : Cause) :
    hasCause (addCause set c) d = (decide (c = d) || hasCause set d) := by
  cases c <;> cases d <;> simp [addCause, hasCause]

/-- A cause already held changes nothing (R183). -/
theorem reportCause_held {c : Cause} {s : State} (h : hasCause s.safe.causes c = true) : reportCause c s = s := by
  simp [reportCause, h]

@[simp] theorem whenPresent_true (f : State → State) (s : State) : whenPresent true f s = f s := rfl
@[simp] theorem whenPresent_false (f : State → State) (s : State) : whenPresent false f s = s := rfl

/-- What an operation keeps, it keeps where it is taken only with a duty present. -/
theorem whenPresent_keeps {α : Type} (g : State → α) {f : State → State} (h : ∀ s, g (f s) = g s) (present : Bool)
    (s : State) : g (whenPresent present f s) = g s := by
  cases present
  · rfl
  · exact h s

/-- Forming claims keeps what each of the five claim settings keeps. -/
theorem setAllClaims_keeps {α : Type} (g : State → α) (d : ∀ s, g (setDriveClaim s) = g s)
    (a : ∀ u s, g (setArmClaim u s) = g s) (w : ∀ s, g (setWaterClaim s) = g s) (c : ∀ s, g (setConsoleClaim s) = g s)
    (s : State) : g (setAllClaims s) = g s :=
  (whenPresent_keeps g c _ _).trans <| (whenPresent_keeps g w _ _).trans <| (whenPresent_keeps g (a .b) _ _).trans
    <| (whenPresent_keeps g (a .a) _ _).trans (whenPresent_keeps g d _ _)

/-- Forming claims leaves Safe Control alone. -/
theorem setAllClaims_safe (s : State) : (setAllClaims s).safe = s.safe :=
  setAllClaims_keeps State.safe (fun _ => rfl) (fun u _ => by cases u <;> rfl) (fun _ => rfl) (fun _ => rfl) s

/-- The water duty's move leaves Safe Control alone. -/
theorem safeWater_safe (s : State) : (safeWater s).safe = s.safe := by
  have off : ∀ t : State, (changeWater .off t).safe = t.safe := fun t =>
    (requestCyclic_frame .water _).safe.trans (checkUrgency_frame _).safe
  unfold safeWater
  split
  · exact off _
  · exact off _
  · exact off _
  · rfl
  · rfl
  · rfl

/-- SAFE entry moves the duties; the cause set and the hold set are the report's own (R184). -/
theorem safeEntry_safe (s : State) : (safeEntry s).safe = s.safe := by
  have claimed := (checkUrgency_frame (setAllClaims s)).safe.trans (setAllClaims_safe s)
  have arms := fun t => (faultEvent_frame .b .stationSafe (faultEvent .a .stationSafe t)).safe.trans
    (faultEvent_frame .a .stationSafe t).safe
  unfold safeEntry
  dsimp only
  cases s.duties.water
  · exact (arms _).trans claimed
  · exact (safeWater_safe _).trans ((arms _).trans claimed)

/-- A report's one lasting effect on the cause set: the cause is in it (R183). -/
theorem reportCause_causes (c : Cause) (s : State) :
    (reportCause c s).safe.hold = s.safe.hold
      ∧ ∀ d, hasCause (reportCause c s).safe.causes d = (decide (c = d) || hasCause s.safe.causes d) := by
  unfold reportCause
  by_cases h : hasCause s.safe.causes c = true
  · rw [if_pos h]
    refine ⟨rfl, fun d => ?_⟩
    by_cases e : c = d
    · subst e; simp [h]
    · simp [e]
  · rw [if_neg h]
    have keep : ∀ t : State, t.safe = { s.safe with causes := addCause s.safe.causes c } →
        (if ownCause c = true then requestEvent .halt (haltRecord c) t else t).safe
          = { s.safe with causes := addCause s.safe.causes c } := by
      intro t ht
      split
      · rw [(requestEvent_frame .halt (haltRecord c) t).safe, ht]
      · exact ht
    have entered : (if isSafe s = true then s.withSafe { s.safe with causes := addCause s.safe.causes c }
        else safeEntry (s.withSafe { s.safe with causes := addCause s.safe.causes c })).safe
          = { s.safe with causes := addCause s.safe.causes c } := by
      split
      · rfl
      · exact safeEntry_safe _
    have k := keep _ entered
    exact ⟨by simp only [k], fun d => by simp only [k]; exact hasCause_addCause ..⟩

/-! ## Claims (R68) -/

/-- A check of urgency leaves every claim as it stands (R55, R70). -/
theorem checkUrgency_claims (s : State) :
    (checkUrgency s).drive.claim = s.drive.claim ∧ (checkUrgency s).armA.claim = s.armA.claim
      ∧ (checkUrgency s).armB.claim = s.armB.claim ∧ (checkUrgency s).water.claim = s.water.claim
      ∧ (checkUrgency s).console.claim = s.console.claim := by
  have h := checkUrgency_frame s
  exact ⟨by rw [h.drive], by rw [h.armA], by rw [h.armB], by rw [h.water], by rw [h.console]⟩

/-- The drive holds the claim of its own state, or the SAFE claim (R66, R68, R184, R189). -/
theorem setAllClaims_drive (s : State) : (setAllClaims s).drive = { s.drive with
    claim := if s.duties.drive then some (formClaim s (driveOwnClaim s)) else s.drive.claim } := by
  unfold setAllClaims
  rw [whenPresent_keeps State.drive (f := setConsoleClaim) (fun _ => rfl), whenPresent_keeps State.drive (f := setWaterClaim) (fun _ => rfl),
    whenPresent_keeps State.drive (f := setArmClaim .b) (fun _ => rfl), whenPresent_keeps State.drive (f := setArmClaim .a) (fun _ => rfl)]
  cases s.duties.drive <;> rfl

/-- Each arm unit holds the claim of its own state, or the SAFE claim (R68, R145, R184, R189). -/
theorem setAllClaims_armA (s : State) : (setAllClaims s).armA = { s.armA with
    claim := if s.duties.armA then some (formClaim s (armOwnClaim s.params.armA s.armA)) else s.armA.claim } := by
  unfold setAllClaims
  rw [whenPresent_keeps State.armA (f := setConsoleClaim) (fun _ => rfl), whenPresent_keeps State.armA (f := setWaterClaim) (fun _ => rfl),
    whenPresent_keeps State.armA (f := setArmClaim .b) (fun _ => rfl)]
  cases s.duties.drive <;> cases s.duties.armA <;> rfl

theorem setAllClaims_armB (s : State) : (setAllClaims s).armB = { s.armB with
    claim := if s.duties.armB then some (formClaim s (armOwnClaim s.params.armB s.armB)) else s.armB.claim } := by
  unfold setAllClaims
  rw [whenPresent_keeps State.armB (f := setConsoleClaim) (fun _ => rfl), whenPresent_keeps State.armB (f := setWaterClaim) (fun _ => rfl)]
  cases s.duties.drive <;> cases s.duties.armA <;> cases s.duties.armB <;> rfl

/-- The water duty holds the claim of its own state, or the SAFE claim (R68, R167, R184, R189). -/
theorem setAllClaims_water (s : State) : (setAllClaims s).water = { s.water with
    claim := if s.duties.water then some (formClaim s (waterOwnClaim s.params.water s.water)) else s.water.claim } := by
  have before {α : Type} (g : State → α) (d : ∀ s, g (setDriveClaim s) = g s) (a : ∀ u s, g (setArmClaim u s) = g s) :
      g (whenPresent s.duties.armB (setArmClaim .b) (whenPresent s.duties.armA (setArmClaim .a)
        (whenPresent s.duties.drive setDriveClaim s))) = g s :=
    (whenPresent_keeps g (a .b) _ _).trans <| (whenPresent_keeps g (a .a) _ _).trans (whenPresent_keeps g d _ _)
  unfold setAllClaims
  rw [whenPresent_keeps State.water (f := setConsoleClaim) (fun _ => rfl)]
  have w := before State.water (fun _ => rfl) (fun u _ => by cases u <;> rfl)
  have p := before State.params (fun _ => rfl) (fun u _ => by cases u <;> rfl)
  have f := before (fun s => isSafe s) (fun _ => rfl) (fun u _ => by cases u <;> rfl)
  cases s.duties.water
  · exact w
  · simp only [whenPresent_true, setWaterClaim, State.withWater, formClaim, w, p, f, if_true]

/-- The console holds the free claim, or the SAFE claim (R67, R68, R184, R189). -/
theorem setAllClaims_console (s : State) : (setAllClaims s).console = { s.console with
    claim := if s.duties.console then some (formClaim s freeClaim) else s.console.claim } := by
  have before {α : Type} (g : State → α) (d : ∀ s, g (setDriveClaim s) = g s) (a : ∀ u s, g (setArmClaim u s) = g s)
      (w : ∀ s, g (setWaterClaim s) = g s) :
      g (whenPresent s.duties.water setWaterClaim (whenPresent s.duties.armB (setArmClaim .b)
        (whenPresent s.duties.armA (setArmClaim .a) (whenPresent s.duties.drive setDriveClaim s)))) = g s :=
    (whenPresent_keeps g w _ _).trans <| (whenPresent_keeps g (a .b) _ _).trans
      <| (whenPresent_keeps g (a .a) _ _).trans (whenPresent_keeps g d _ _)
  unfold setAllClaims
  have c := before State.console (fun _ => rfl) (fun u _ => by cases u <;> rfl) (fun _ => rfl)
  have f := before (fun s => isSafe s) (fun _ => rfl) (fun u _ => by cases u <;> rfl) (fun _ => rfl)
  cases s.duties.console
  · exact c
  · simp only [whenPresent_true, setConsoleClaim, State.withConsole, formClaim, c, f, if_true]

/-- While SAFE every formed claim is 0, STOP, STATION_SAFE (R68). -/
theorem formClaim_safe {s : State} (h : isSafe s = true) (own : Claim) : formClaim s own = safeClaim := by
  simp [formClaim, h]

theorem formClaim_free {s : State} (h : isSafe s = false) (own : Claim) : formClaim s own = own := by
  simp [formClaim, h]

end Sys2Proof.Machine
end

