-- ==== Sys2Proof/Tests/Slice0.lean ====
section
/-! SUPPORT. The model's own tests: which commands can come, one step of each command against the spec's worked examples, and, for
every statement with hypotheses, a station that meets them. -/

set_option Elab.async false

namespace Sys2Proof.Tests

open Sys2Proof.Machine

/-! ## A station to work on

Station 1 of a compact machine, OPERATING at station time 10,000 ms: the drive of spec/05's worked example RUNNING, the left arm
of spec/07's, the water of spec/08's SPRAYING, and the console. -/

def leftArm : ArmParams where
  position := .left
  brushLine := some 2
  sweepWidth := 900
  yieldWidth := 300
  baseRpm := 150
  maxRpm := 450
  slope := 100
  kb := 1600
  kt := 20
  stepTimeout := 80
  stowLow := 40
  stowHigh := 120
  moveCeiling := 1500
  yieldCeiling := 1000
  lines := #v[some 4, some 5, some 6, some 7]
  deploy := [.valve 1 false, .valve 3 false, .valve 0 true, .waitAngle false 700, .valve 0 false, .valve 2 true, .waitTime 10,
    .brush true, .waitBrush, .waitWater]
  retract := [.brush false, .valve 0 false, .valve 2 false, .valve 3 true, .valve 1 true, .waitAngle true 80, .valve 1 false]
  yield := [.valve 2 false, .valve 3 true, .valve 0 false, .valve 1 true, .waitAngle true 400, .valve 1 false]
  resume := [.brush true, .valve 1 false, .valve 0 true, .waitAngle false 700, .valve 0 false, .valve 3 false, .valve 2 true]
  brushConst := ⟨500, 50, 6000000⟩

def image0 : Params where
  periods := #v[2, 1, 2, 5, 5, 5]
  drive :=
    { transportMax := 6000, sweepMax := 3500, reverseMax := 1500, creep := 1000, agedCreep := 800, engineMin := 700
      aUp := 800, aDown := 1000, aPrompt := 1500, aEmergency := 2500, kff := 333, kp := 32, ki := 8, iLimit := 200
      iMin := 150, iMax := 850, fwdLine := some 0, revLine := some 1, brakeLine := some 0
      wheelConst := ⟨2000, 20, 31400000⟩, engineConst := ⟨500, 10, 7500000⟩ }
  water :=
    { rateMax := 400, qMax := 600, sprayMin := 200, primeTime := 20, kq := 64, kw := 1500, lowMark := 150, emptyMark := 40
      dryForbidden := true, pumpLine := some 4
      sprays := #v[⟨some 1, .arm 2 .a⟩, ⟨some 2, .always⟩, ⟨none, .always⟩, ⟨none, .always⟩]
      flowConst := ⟨500, 30, 1000000⟩ }
  console := ⟨30, 400, true, some 15⟩
  armA := leftArm
  armB := { leftArm with position := .right, brushLine := some 3, lines := #v[some 8, some 9, some 10, some 11] }

/-- A rule in use that compares class, topic and source as its mask says. -/
def aRule (value mask : BitVec 12) (least label : BitVec 4) (dest age slot : BitVec 8) (required : Bool := false) : Rule :=
  ⟨true, .others, required, value, mask, least, label, dest, age, slot⟩

def table0 : Vector Rule 24 :=
  #v[aRule 0x010 0xFF0 0 6 1 1 0, aRule 0x880 0xFF0 0 7 1 1 0, aRule 0xA90 0xFF0 0 8 1 1 0,
    aRule 0x222 0xFFF 5 1 0 6 7 true, aRule 0x430 0xFF0 0 2 0 10 0, aRule 0x440 0xFF0 0 3 0 10 1, aRule 0x650 0xFF0 0 4 0 15 2,
    aRule 0x670 0xFF0 0 5 0 15 4, aRule 0xF46 0xFFF 6 0 2 50 9, aRule 0x223 0xFFF 5 1 0 6 8, aRule 0x224 0xFFF 5 1 0 6 10,
    State.noRule, State.noRule, State.noRule, State.noRule, State.noRule, State.noRule, State.noRule, State.noRule, State.noRule,
    State.noRule, State.noRule, State.noRule, State.noRule]

/-- A slot that holds a record of sequence number 17, arrived at 9,990 ms. -/
def aSlot (age : Age) (rule : Fin 24) (header : Word16) (payload : List Byte) (deadline : Option Nat) : Slot :=
  ⟨some ⟨age, rule, header, 17, payload, 9990, deadline⟩, false⟩

def slots0 : Vector Slot 32 :=
  ((((((Vector.replicate 32 (⟨none, false⟩ : Slot)).set 0
      (aSlot .fresh 4 0x431C [7, 208, 7, 208, 0, 2, 0, 0, 0, 13, 5, 38] (some 10090))).set 1
      (aSlot .fresh 5 0x4407 [2, 0, 2, 174, 0x40, 0, 60] (some 10090))).set 2
      (aSlot .fresh 6 0x652C [0, 2, 0, 0, 11, 184, 0, 0, 0, 0, 100, 0] (some 10090))).set 4
      (aSlot .fresh 7 0x674C [2, 0, 0, 0, 0, 0, 0, 0, 0, 0, 0, 0] (some 10090))).set 7
      (aSlot .fresh 3 0x2225 [1, 13, 5, 0, 6] (some 10000))).set 8 (aSlot .lost 9 0x2235 [1, 3, 232, 1, 3] none)

def free : Claim := ⟨6000, .normal, .none⟩

/-- A tracking pulse channel of a value. -/
def aChannel (fn : PulseFn) (value : Nat) : PulseChannel := ⟨fn, .tracking, value, some 9990000, some 15700, 0⟩

def anInput (fn : AnalogFn) (reading : Nat) : AnalogInput := ⟨fn, reading, true, 0, some reading, 10000⟩

def aSwitch (fn : SwitchFn) (level : Bool) : SwitchInput := ⟨fn, level, 19, 10000⟩

def inputs0 : Inputs where
  pulse := #v[aChannel .wheel 1950, aChannel .engine 1800, aChannel .brushA 245, ⟨.brushB, .stopped, 0, none, none, 0⟩,
    aChannel .flow 354, ⟨.unused, .stopped, 0, none, none, 0⟩]
  distance := 1000
  remainder := 0
  analog := #v[anInput .angleA 300, anInput .angleB 90, anInput .tank 600, anInput .pedal 640]
  switches := #v[aSwitch .deflectA false, aSwitch .deflectB true, aSwitch .mode1 false, aSwitch .mode2 true,
    aSwitch .haltButton true, aSwitch .resetButton false, aSwitch (.deploy .left) false, aSwitch (.retract .left) true]
  sensorLost := false

/-- An arm unit at rest in a state, its inputs those of the slots. -/
def anArm (state : ArmState) : Arm :=
  { State.resetArm with
    state := state, cause := if state = .fault then .stationSafe else .none
    loadDue := if state = .sweeping then some 10000 else none
    inputs := ⟨true, .sweep, .deploy, 2000, some .forward⟩, claim := some free, due := some 10000 }

/-- An arm unit in a list's state with steps left, a wait step's timers set. -/
def listing (state : ArmState) (left : Nat) (record : StepRecord) : Arm :=
  { anArm state with list := listOf state, remaining := left, deadline := some 10000, record := record }

def station : State :=
  { State.atReset false 1 with
    micros := 10000000
    loader := ⟨.operating, 1, .valid, none, 1, none, some 0x1234⟩
    duties := ⟨true, true, true, true, true⟩
    params := image0
    link := { State.resetLink with state := .on, receiver := .waiting, bitRate := some .k250 }
    picture := { State.resetPicture with table := table0, slots := slots0 }
    pub := { State.resetPub with timers := Vector.replicate 6 (some 10000) }
    inputs := inputs0
    drive := { State.resetDrive 1 with
      state := .running, mode := .sweep, v := 1992, a1 := 20480, brakeOn := true, due := some 10000, claim := some free,
      fwdDuty := 150 }
    armA := anArm .stowed
    armB := anArm .stowed
    water := { State.resetWater with
      state := .spraying, rate := 60, width := 3000, speed := 2000, active := true, q := 360, trim := 10, pump := 550, tank := 600,
      claim := some free, due := some 10000 }
    console := { State.resetConsole with mode := .sweep, claim := some free, due := some 10000 } }

/-- What a command makes of a station. -/
def after (c : Instr) (s : State) : State :=
  match exec c s with
  | .next t => t
  | .fault _ => s
  | .refused _ => s

/-- The station in another station state. -/
def staged (x : StationState) (s : State) : State := { s with loader := { s.loader with station := x } }

/-- The station with a frame at the head of its holding queue. -/
def holding (f : HeldFrame) (s : State) : State := { s with link := { s.link with holding := [f] } }

/-- The station with an entry at the head of its event queue. -/
def queued (l : Label) (header : Word16) (payload : List Byte) (s : State) : State :=
  { s with picture := { s.picture with events := [⟨l, header, 7, payload⟩] } }

/-- The station SAFE through a set of causes. -/
def causes (c : CauseSet) (s : State) : State := { s with safe := { s.safe with causes := c } }

/-- A PACE, an ARM_A and a NOTICE of this station. -/
def aPace : TxEntry := ⟨.cyclic, 0x2215, 40, [1, 9, 246, 0, 5], none⟩
def anArmRecord : TxEntry := ⟨.cyclic, 0x651C, 7, [0, 2, 0, 0, 11, 184, 0, 0, 0, 0, 100, 0], none⟩
def aNotice : TxEntry := ⟨.event, 0x8813, 3, [0, 37, 0], some 9000⟩

/-- The station with a transmit list. -/
def listed (l : List TxEntry) (s : State) : State := { s with pub := { s.pub with list := l } }

/-- The station with a frame in hand and its transmitter in a state. -/
def sending (t : Transmitter) (e : TxEntry) (s : State) : State :=
  { s with link := { s.link with
    transmitter := t, inHand := some e, receiver := if t = .abort then .hunt else .inFrame
    abortDue := if t = .abort then some 10000000 else none } }

/-! ## Commands that can come (R27, R30) -/

theorem test_wellFormed_refuses_a_short_frame : (Instr.receiveFrameComplete [0x22, 0x35, 0x28, 1]).wellFormed = false := by
  decide

theorem test_wellFormed_refuses_a_long_frame : (Instr.receiveFrameComplete [0x08, 0x30, 1, 2, 3, 4]).wellFormed = false := by
  decide

theorem test_wellFormed_takes_a_whole_frame : (Instr.receiveFrameComplete [0x08, 0x30, 1, 2, 3]).wellFormed = true := by
  decide

/-! ## One step of each command, with the numbers of the spec's worked examples -/

/-- R28's own check value: the nine bytes of the text 123456789. -/
theorem test_crc_check_value : crc16 [0x31, 0x32, 0x33, 0x34, 0x35, 0x36, 0x37, 0x38, 0x39] = 0x29B1 := by
  decide +kernel

/-- spec/12, worked example: one PACE frame. -/
theorem test_pace_frame_characters : (frameChars (topicHeader .pace 3) 40 [1, 9, 246, 0, 5]).take 8
    = [0x22, 0x35, 0x28, 0x01, 0x09, 0xF6, 0x00, 0x05] := by decide +kernel

/-- R195, R200: address 15 is a failed check. -/
theorem test_stationReset_with_straps_15 :
    let t := after (.stationReset 15) State.reset
    t.loader.station = .configFault ∧ t.loader.failedCheck = some .address ∧ t.link.bitRate = some .k250 := by
  decide +kernel

theorem test_resetAsserted_holds_the_station : (after .resetAsserted station).held = true := by
  decide +kernel

/-- R196: three attempts, then NO_MEMORY. -/
theorem test_imageReadFailed_three_times :
    let s := after .imageReadFailed (after .imageReadFailed (after (.stationReset 2) State.reset))
    s.loader.attempts = 3 ∧ (after .imageReadFailed s).loader.failedCheck = some .noMemory := by decide +kernel

/-- spec/11, worked example: the notice of a failed image has detail 14 for STEP_LIST, every 1000 ms. -/
theorem test_configBadTimer_notice :
    let s : State := { State.atReset false 2 with
      micros := 1031000, loader := ⟨.configFault, 2, .failed, some .stepList, 1, none, none⟩,
      pub := { State.resetPub with configBadDue := some 1031 } }
    let p := (after .configBadTimerExpiry s).pub
    p.list.map TxEntry.payload = [[7, 14, 0]] ∧ p.configBadDue = some 2031 := by decide +kernel

/-- spec/11, worked example: at the join timer's expiry the list is PACE, TRAVEL, on a station with the drive alone. -/
theorem test_joinTimer_first_frames :
    let s := { staged .joining station with duties := ⟨true, false, false, false, false⟩ }
    (after .joinTimerExpiry { s with loader := { s.loader with joinDue := some 10000 } }).pub.list.map TxEntry.header
      = [0x2215, 0x431C] := by decide +kernel

/-- R32: idle in a frame is a short frame. -/
theorem test_idleSeen_in_a_frame :
    let t := after .idleSeen { station with link := { station.link with receiver := .inFrame } }
    t.link.receiver = .waiting ∧ t.link.shortFlag = true := by decide

/-- R29, R37: idle brings the receiver to WAITING on a bus that reads recessive while the station drives it dominant. -/
theorem test_idleSeen_in_an_abort :
    (after .idleSeen (sending .abort aPace station)).link.receiver = .waiting := by decide

theorem test_framingError_hunts :
    let t := after .framingError { station with link := { station.link with receiver := .inFrame } }
    t.link.receiver = .hunt ∧ t.link.framingFlag = true := by decide

/-- A frame with one bit of its CRC wrong is discarded (R30). -/
theorem test_receiveFrame_checks_the_crc :
    let s := { station with link := { station.link with receiver := .inFrame } }
    let good := frameChars 0x2235 40 [1, 9, 246, 0, 5]
    (after (.receiveFrameComplete good) s).link.holding = [⟨.others, 0x2235, 40, [1, 9, 246, 0, 5]⟩]
      ∧ (after (.receiveFrameComplete (good.set 9 (good.getD 9 0 ^^^ 1))) s).link.crcFlag = true := by decide +kernel

/-- spec/03, worked example: the start bit takes PACE 40. -/
theorem test_transmitStart_takes_the_head :
    let t := after .transmitStart (listed [aPace, anArmRecord] station)
    t.link.inHand = some aPace ∧ t.pub.list = [anArmRecord] ∧ t.link.transmitter = .contend := by decide +kernel

/-- spec/02, worked example: a station whose list is not empty takes another's start bit as its own. -/
theorem test_frameBegins_joins_the_contest :
    (after .frameBegins (listed [aPace] station)).link.transmitter = .contend
      ∧ (after .frameBegins station).link.transmitter = .quiet := by decide +kernel

theorem test_arbitrationWon_goes_on : (after .arbitrationWon (sending .contend aPace station)).link.transmitter = .send := by
  decide +kernel

/-- spec/03, worked example: PACE 40 loses with no PACE pending and stands again before ARM_A 7. -/
theorem test_arbitrationLost_returns_the_frame :
    (after .arbitrationLost (listed [anArmRecord] (sending .contend aPace station))).pub.list = [aPace, anArmRecord] := by
  decide +kernel

/-- R39: 12 bit times of 4 µs at 250 kbit/s. -/
theorem test_transmitFault_aborts :
    (after .transmitFault (sending .send aPace station)).link.abortDue = some 10000048 := by decide +kernel

/-- spec/02, worked example: an abort at tally 117 makes 125. -/
theorem test_abortEnd_below_the_limit :
    let s := sending .abort aPace station
    let t := after .abortEnd { s with link := { s.link with tally := 117 } }
    t.link.tally = 125 ∧ t.link.state = .on ∧ t.pub.list = [aPace] := by
  have both (first : Bool) (q : State) (h : q = onLink quietAbort
      { sending .abort aPace station with link := { (sending .abort aPace station).link with tally := 117 } }) :
      let t := if first then returnInHand (checkTally q) else checkTally (returnInHand q)
      t.link.tally = 125 ∧ t.link.state = .on ∧ t.pub.list = [aPace] := by
    subst h; cases first <;> decide +kernel
  exact both (Config.muteBeforeReturn 10000000) _ rfl

/-- spec/02, worked example: a success at tally 118 makes 117, and the echo copy joins the holding queue. -/
theorem test_transmitSuccess_echoes :
    let s := sending .send anArmRecord station
    let t := after .transmitSuccess { s with link := { s.link with tally := 118 } }
    t.link.tally = 117 ∧ t.link.holding.map HeldFrame.origin = [.self] := by decide +kernel

/-- R58: a NOTICE still owed when the instant ends is built with the dropped count and the topic last dropped. -/
theorem test_step_pays_an_owed_notice :
    let s := { station with pub := { station.pub with dropped := 2, lastDropped := 8, noticeDue := true } }
    let p := (passMicrosecond s).pub
    p.list.map TxEntry.payload = [[4, 2, 8]] ∧ p.dropped = 0 := by decide +kernel

theorem test_muteTimer_expires :
    let s := { station with link := { station.link with state := .mute, tally := 133, muteDue := some 10000 } }
    let t := after .muteTimerExpiry s
    t.link.state = .hunt ∧ t.link.tally = 0 ∧ t.link.receiver = .hunt := by decide +kernel

/-- spec/01, worked example: a class 7 frame of length 3 below its rule's minimum of 6. -/
theorem test_filterPass_short_payload :
    let t := after .filterPass (holding ⟨.others, 0xF463, 1, [1, 2, 3]⟩ station)
    t.picture.shortPayload = true ∧ t.picture.slots = slots0 ∧ t.link.holding = [] := by decide +kernel

/-- spec/01, worked example: a frame of sequence 18 after 17 is no gap, its deadline an age limit on; sequence 0 is a gap. -/
theorem test_storeComplete_gap :
    let s (seq : Byte) := { holding ⟨.others, 0x431C, seq, [7, 208, 7, 208, 0, 2, 0, 0, 0, 13, 5, 38]⟩ station with
      picture := { station.picture with store := some 4 } }
    ((after .storeComplete (s 18)).picture.slots[0]).gap = false
      ∧ (((after .storeComplete (s 18)).picture.slots[0]).record.bind SlotRecord.deadline) = some 10100
      ∧ ((after .storeComplete (s 0)).picture.slots[0]).gap = true := by decide +kernel

/-- spec/01, worked example: a FRESH slot at its deadline is AGED, with the deadline an age limit on. -/
theorem test_slotDeadline_ages :
    ((after (.slotDeadline 7) station).picture.slots[7]).record.map (fun r => (r.age, r.deadline))
      = some (.aged, some 10060) := by decide +kernel

/-- spec/10, worked example: a peer's HALT puts a RUNNING drive in HALTING. -/
theorem test_eventHandler_halt :
    let t := after .eventHandlerTake (queued .haltIn 0x0152 [0, 4] station)
    t.drive.state = .halting ∧ t.water.state = .off ∧ t.safe.causes.peerHalt = true := by decide +kernel

/-- R61, R63: a QUERY with what 1 is answered by STATUS. -/
theorem test_eventHandler_query :
    (after .eventHandlerTake (queued .controlIn 0xCA62 [1, 1] station)).pub.list.map TxEntry.payload
      = [[1, 0, 1, 0, 0, 0, 0, 0x54, 0x40]] := by decide +kernel

/-- spec/04, worked example: water at 3333 limits; its PACE. -/
theorem test_periodTimer_pace :
    let s := { station with water := { station.water with claim := some ⟨3333, .normal, .waterCapacity⟩ } }
    (after (.periodTimerExpiry .pace) s).pub.list.map TxEntry.payload = [[3, 13, 5, 0, 6]] := by decide +kernel

/-- spec/05, worked example: one RUNNING period. -/
theorem test_drivePeriod_running :
    let d := (after .drivePeriodExpiry station).drive
    d.v = 2000 ∧ d.d = 415 ∧ d.a1 = 20880 ∧ d.fwdDuty = 440 ∧ d.revDuty = 0 := by decide +kernel

/-- spec/05, worked example: the first HALTING period. -/
theorem test_drivePeriod_halting :
    let s := { station with
      drive := { station.drive with state := .halting, v := 2000, a1 := 0 }
      inputs := { inputs0 with pulse := inputs0.pulse.set 0 (aChannel .wheel 2000) } }
    let d := (after .drivePeriodExpiry s).drive
    d.v = 1975 ∧ d.d = 353 ∧ d.a1 = -200 ∧ d.fwdDuty = 397 := by decide +kernel

/-- spec/06, worked example: a wheel edge 15,700 µs after the last, and a spike 800 µs after it. -/
theorem test_pulseEdge_wheel :
    let s := { station with inputs := { inputs0 with
      distance := 1031, remainder := 400, pulse := inputs0.pulse.set 0 { aChannel .wheel 0 with lastEdge := some 9984300 } } }
    let t := after (.pulseEdge 0) s
    (t.inputs.pulse[0]).value = 2000 ∧ t.inputs.distance = 1062 ∧ t.inputs.remainder = 800
      ∧ after (.pulseEdge 0) { t with micros := 10000800 } = { t with micros := 10000800 } := by decide +kernel

/-- spec/06, worked example: the missing deadline falls at two periods, where the value read is 1000. -/
theorem test_missingDeadline_value :
    let s := { station with inputs := { inputs0 with
      pulse := inputs0.pulse.set 0 { aChannel .wheel 2000 with lastEdge := some 9968600 } } }
    let t := after (.missingDeadline 0) s
    (t.inputs.pulse[0]).state = .oneMissing ∧ fnValue t .wheel = 1000 := by decide +kernel

/-- spec/06, worked example: the stop deadline at three periods, motion expected. -/
theorem test_stopDeadline_lost :
    let s := { station with inputs := { inputs0 with
      pulse := inputs0.pulse.set 0 { aChannel .wheel 2000 with lastEdge := some 9952900 } } }
    let t := after (.stopDeadline 0) s
    fnState t .wheel = some .lost ∧ t.pub.list.map TxEntry.payload = [[5, 0, 1]] := by decide +kernel

/-- R114: a brush that should turn, and that nothing was heard of for W. -/
theorem test_watchDeadline_lost :
    let s := { station with armB := { anArm .sweeping with target := 300, expectSince := some 9500000 } }
    fnState (after (.watchDeadline 3) s) .brushB = some .lost ∧ (after (.watchDeadline 3) s).armB.cause = .brushSensor := by
  decide +kernel

/-- spec/06, worked example: a pedal sender fault, detail 3 / 4 truncated. -/
theorem test_conversion_pedal_fault :
    let t := after (.analogConversion 3 3) station
    pedalValue t.inputs = 0 ∧ t.pub.list.map TxEntry.payload = [[1, 0, 0]] := by decide +kernel

/-- spec/07, worked example: the angle reads 712; lines 0 OFF and 2 ON, and WAIT_TIME records its start. -/
theorem test_conversion_completes_an_angle_wait :
    let s := { station with armA := { listing .deploying 7 .none with levels := #v[true, false, false, false] } }
    let a := (after (.analogConversion 0 712) s).armA
    a.remaining = 4 ∧ a.levels = #v[false, false, true, false] ∧ a.record = .time 10000 ∧ a.deadline = none := by decide +kernel

/-- R120, R174: the twentieth low sample of DEPLOY_LEFT is a press. -/
theorem test_switchSample_press :
    let t := after (.switchSample 6 true) station
    t.console.requests.left = .deploy ∧ (t.inputs.switches[6]).level = true := by decide +kernel

/-- spec/07, worked example: the deploy condition found; lines 1 and 3 OFF, 0 ON, then the angle wait. -/
theorem test_armPeriod_deploys :
    let a := (after (.armPeriodExpiry .a) station).armA
    a.state = .deploying ∧ a.remaining = 7 ∧ a.levels = #v[true, false, false, false] ∧ a.deadline = some 18000
      ∧ a.claim = some ⟨1500, .normal, .armMoving⟩ := by decide +kernel

/-- spec/07, worked example: WAIT_TIME completes at travel speed 1500; target 300, PWM 480, then WAIT_BRUSH. -/
theorem test_waitTime_starts_the_brush :
    let arm := listing .deploying 4 (.time 9500)
    let s := { station with
      armA := { arm with inputs := { arm.inputs with vt := 1500 } }
      inputs := { inputs0 with pulse := inputs0.pulse.set 2 (aChannel .brushA 0) } }
    let a := (after (.waitTimeComplete .a) s).armA
    a.remaining = 2 ∧ a.target = 300 ∧ a.pwm = 480 ∧ a.deadline = some 18000 := by decide +kernel

theorem test_stepDeadline_faults :
    let a := (after (.stepDeadline .a) { station with armA := listing .deploying 7 .none }).armA
    a.state = .fault ∧ a.cause = .stepTimeout ∧ a.claim = some ⟨0, .prompt, .armFault⟩ := by decide +kernel

/-- spec/04, worked example: L rises from 80 to 85, and the claim with it. -/
theorem test_loadWindow_raises_the_claim :
    let a := (after (.loadWindowExpiry .a) { station with armA := { anArm .sweeping with load := 80, target := 250 } }).armA
    a.load = 85 ∧ a.claim = some ⟨2550, .normal, .brushLoad⟩ ∧ a.loadDue = some 10500 := by decide +kernel

/-- spec/08, worked example: setpoint 360, trim 11, pump duty 551, claim 3333. -/
theorem test_waterPeriod_meters :
    let w := (after .waterPeriodExpiry station).water
    w.q = 360 ∧ w.trim = 11 ∧ w.pump = 551 ∧ w.saturated = false ∧ w.claim = some ⟨3333, .normal, .waterCapacity⟩ := by
  decide +kernel

/-- spec/08, worked example: rate 150 saturates the pump. -/
theorem test_waterPeriod_saturates :
    let s := { station with
      picture := { station.picture with
        slots := slots0.set 1 (aSlot .fresh 5 0x4407 [2, 0, 2, 174, 0x40, 0, 150] (some 10090)) }
      water := { station.water with trim := 11 } }
    let w := (after .waterPeriodExpiry s).water
    w.q = 600 ∧ w.trim = 72 ∧ w.pump = 972 ∧ w.saturated = true ∧ w.claim = some ⟨1333, .normal, .waterCapacity⟩ := by
  decide +kernel

/-- spec/09, worked example: pedal 640 with the default deadband is 628. -/
theorem test_consolePeriod_pedal :
    let c := (after .consolePeriodExpiry station).console
    c.pedal = 628 ∧ c.mode = .sweep ∧ c.direction = .forward := by decide +kernel

/-- spec/09, worked example: RESET held for 2000 ms. -/
theorem test_resetHold_asks_for_the_arms :
    let s := { station with
      console := { station.console with resetHold := some 8000 }
      inputs := { inputs0 with switches := inputs0.switches.set 5 (aSwitch .resetButton true) } }
    (after .resetHoldTimerExpiry s).pub.list.map TxEntry.payload = [[15, 12]] := by decide +kernel

theorem test_lampDeadline_puts_the_lamp_out :
    (after .lampDeadline { station with console := { station.console with lampDeadline := some 10000 } }).console.lampDeadline
      = none := by decide

/-! ## An image that is accepted

A whole image of the station above with both arm units, in the order of R209, and the same image with one field wrong. -/

/-- Bytes 0–195: version, duty set, bit rate, and 24 rule entries, eight of them in use. -/
def imageRules (version : Byte) : List Byte :=
  version :: [31, 2] ++ List.replicate 1 0 ++
    [128, 1, 0, 255, 6, 1, 1, 0, 128, 136, 0, 255, 7, 1, 1, 0, 128, 169, 0, 255, 8, 1, 1, 0, 160, 34, 37, 255, 241,
    0, 6, 7, 128, 67, 0, 255, 2, 0, 10, 0, 128, 68, 0, 255, 3, 0, 10, 1, 128, 101, 0, 255, 4, 0, 15, 2, 128, 103, 0,
    255, 5, 0, 15, 4] ++ List.replicate 128 0

/-- Bytes 196–319: periods, input functions and the drive block. -/
def imageDrive : List Byte :=
  [2, 1, 2, 5, 5, 5, 0, 0, 0, 0, 0, 0, 0, 0, 0, 0, 18, 52, 80, 52, 81, 18, 52, 103, 140] ++ List.replicate 3 0 ++
    [23, 112, 13, 172, 5, 220, 3, 232, 3, 32, 2, 188, 3, 32, 3, 232, 5, 220, 9, 196, 1, 77, 32, 8, 0, 200, 0, 150,
    3, 82, 0, 1, 0, 7, 208, 20, 1, 223, 32, 64, 1, 244, 10, 0, 114, 112, 224] ++ List.replicate 49 0

/-- Bytes 320–415: the water and console blocks. -/
def imageWater : List Byte :=
  [1, 144, 2, 88, 0, 200, 20, 64, 5, 220, 0, 150, 0, 40, 1, 4, 1, 32, 2, 240, 255, 0, 255, 0, 1, 244, 30, 0, 15,
    66, 64] ++ List.replicate 33 0 ++
    [0, 30, 1, 144, 1, 15] ++ List.replicate 26 0

/-- Bytes 416–479: the two arm blocks. -/
def imageArms : List Byte :=
  [0, 2, 3, 132, 1, 44, 0, 150, 1, 194, 0, 100, 6, 64, 20, 80, 0, 40, 0, 120, 5, 220, 3, 232, 4, 5, 6, 7, 2, 1, 1,
    1, 1, 3, 3, 132, 1, 44, 0, 150, 1, 194, 0, 100, 6, 64, 20, 80, 0, 40, 0, 120, 5, 220, 3, 232, 8, 9, 10, 11, 2,
    1, 1, 1]

/-- The 128 bytes of one arm's four lists. -/
def imageLists : List Byte :=
  [0, 4, 66, 188, 0, 0, 0, 0, 0, 0, 0, 0, 0, 0, 0, 0, 0, 0, 0, 0, 0, 0, 0, 0, 0, 0, 0, 0, 0, 0, 0, 0, 80, 80, 0,
    0, 0, 0, 0, 0, 0, 0, 0, 0, 0, 0, 0, 0, 0, 0, 0, 0, 0, 0, 0, 0, 0, 0, 0, 0, 0, 0, 0, 0, 0, 3, 0, 0, 0, 0, 0, 0,
    0, 0, 0, 0, 0, 0, 0, 0, 0, 0, 0, 0, 0, 0, 0, 0, 0, 0, 0, 0, 0, 0, 0, 0, 32, 1] ++ List.replicate 30 0

/-- Bytes 736–1021: the hold set and the brush channels' constants. -/
def imageHold : List Byte :=
  [128, 0, 0, 0, 0, 0, 0, 0, 0, 0, 0, 0, 0, 0, 0, 0, 0, 0, 1, 244, 50, 0, 91, 141, 128, 1, 244, 50, 0, 91, 141,
    128] ++ List.replicate 254 0

def imageText (version : Byte) : List Byte :=
  imageRules version ++ (imageDrive ++ (imageWater ++ (imageArms ++ (imageLists ++ (imageLists ++ imageHold)))))

theorem imageText_length (version : Byte) : (imageText version).length = 1022 := by
  have rules : (imageRules version).length = 196 := rfl
  have drive : imageDrive.length = 124 := by decide +kernel
  have water : imageWater.length = 96 := by decide +kernel
  have arms : imageArms.length = 64 := by decide +kernel
  have lists : imageLists.length = 128 := by decide +kernel
  have hold : imageHold.length = 286 := by decide +kernel
  unfold imageText
  simp only [List.length_append, rules, drive, water, arms, lists, hold]

/-- The image of a text with the CRC of R197 behind it, the CRC's last byte changed by a mask. -/
def sealedImage (version mask : Byte) : Vector Byte 1024 :=
  ⟨(imageText version ++ [(crc16 (imageText version)).extractLsb' 8 8,
    (crc16 (imageText version)).extractLsb' 0 8 ^^^ mask]).toArray, by simp [imageText_length]⟩

theorem sealedImage_text (version mask : Byte) : (sealedImage version mask).toList.take 1022 = imageText version := by
  show (imageText version ++ _).take 1022 = _
  rw [← imageText_length version]; exact List.take_left

theorem sealedImage_crc (version mask : Byte) : (sealedImage version mask)[1022] ++ (sealedImage version mask)[1023]
    = (crc16 (imageText version)).extractLsb' 8 8 ++ ((crc16 (imageText version)).extractLsb' 0 8 ^^^ mask) := by
  have h (i : Nat) (k : i < 1024) : (sealedImage version mask)[i] = (imageText version
      ++ [(crc16 (imageText version)).extractLsb' 8 8, (crc16 (imageText version)).extractLsb' 0 8 ^^^ mask])[i]'(by
        rw [List.length_append, imageText_length]; exact k) := rfl
  have short := Nat.le_of_eq (imageText_length version)
  rw [h, h, List.getElem_append_right short, List.getElem_append_right (Nat.le_succ_of_le short)]
  simp only [imageText_length]
  rfl

/-- A CRC's two bytes side by side are the CRC. -/
theorem halves (x : Word16) : x.extractLsb' 8 8 ++ (x.extractLsb' 0 8 ^^^ (0 : Byte)) = x := by
  apply BitVec.eq_of_getLsbD_eq
  intro i hi
  rw [BitVec.getLsbD_append]
  by_cases k : i < 8
  · simp [k]
  · have e : 8 + (i - 8) = i := by omega
    have l : i - 8 < 8 := by omega
    simp [k, e, l]

theorem sealedImage_agrees (version : Byte) : crcAgrees (sealedImage version 0) = true := by
  rw [crcAgrees_iff, sealedImage_text, sealedImage_crc, halves]

/-- The image with version 1 passes every check of R198. -/
theorem test_image_is_accepted : failedCheckOf (sealedImage 1 0) = none := by
  unfold failedCheckOf
  rw [if_pos (sealedImage_agrees 1)]
  decide +kernel

/-- R201: an accepted image puts a configuring station in JOINING. -/
theorem test_imageReadComplete_joins :
    (after (.imageReadComplete (sealedImage 1 0) #v[300, 90, 600, 640]) (after (.stationReset 2) State.reset)).loader.station
      = .joining := by
  simp only [after, exec, execImageReadComplete, test_image_is_accepted]
  decide +kernel

/-! ## Stations that meet the hypotheses of the statements

Each theorem is named after its statement and gives, for every clause, a station and operands that meet its hypotheses together,
at the ends of their ranges where there is one. -/

theorem witness_StepRunsTheFrontCommand :
    ({ station with pending := [.idleSeen, .filterPass] } : State).pending = .idleSeen :: [.filterPass] := rfl

/-- Nothing owed; a NOTICE owed with three event places taken, with four, and in JOINING. -/
theorem witness_EmptyQueueLetsOneMicrosecondPass :
    let owed (n : Nat) := listed (List.replicate n aNotice) { station with
      pub := { station.pub with dropped := 2, lastDropped := 8, noticeDue := true } }
    station.pending = [] ∧ station.held = false ∧ station.pub.noticeDue = false
      ∧ State.reset.pending = [] ∧ State.reset.held = true
      ∧ (owed 3).pending = [] ∧ (owed 3).held = false ∧ (owed 3).pub.noticeDue = true ∧ (owed 3).loader.station = .operating
      ∧ 0 < (owed 3).pub.dropped ∧ placesTaken (owed 3) < 4
      ∧ (owed 3).pub.list.Pairwise (fun a b => a.header.toNat ≤ b.header.toNat) ∧ 4 ≤ placesTaken (owed 4)
      ∧ (staged .joining (owed 0)).loader.station ≠ .operating := by decide +kernel

theorem witness_ResetGivesResetValuesAndSamplesTheStraps : (0 : BitVec 4) ≠ 15 ∧ (14 : BitVec 4) ≠ 15 := by decide

/-- A station that reads its image. -/
def booting : State := after (.stationReset 2) State.reset

/-- What a station without duties carries. -/
theorem carriesNothing {s : State} (d : s.duties = ⟨false, false, false, false, false⟩)
    (r : s.drive = State.resetDrive s.loader.address) (a : s.armA = State.resetArm) (b : s.armB = State.resetArm)
    (w : s.water = State.resetWater) : CarriedDutiesOnly s :=
  ⟨fun _ => d, fun _ => r, fun u _ => by cases u <;> simp [State.arm, a, b, State.resetArm], fun _ => w⟩

theorem booting_carriesNothing : CarriedDutiesOnly booting := carriesNothing rfl rfl rfl rfl rfl

/-- A read that fails at the first and at the third attempt, and the two cases of a bad image: a CRC with one bit wrong, and a
version of 2 under a right CRC. -/
theorem witness_FailedReadsAndBadImagesEndInConfigFault :
    let third := after .imageReadFailed (after .imageReadFailed booting)
    booting.loader.station = .configuring ∧ booting.held = false ∧ CarriedDutiesOnly booting
      ∧ booting.safe.causes.configBad = false ∧ booting.loader.attempts < 3
      ∧ 3 ≤ third.loader.attempts ∧ third.loader.station = .configuring ∧ third.held = false ∧ CarriedDutiesOnly third
      ∧ third.safe.causes.configBad = false
      ∧ crc16 ((sealedImage 1 1).toList.take 1022) ≠ (sealedImage 1 1)[1022] ++ (sealedImage 1 1)[1023]
      ∧ crc16 ((sealedImage 2 0).toList.take 1022) = (sealedImage 2 0)[1022] ++ (sealedImage 2 0)[1023]
      ∧ ∃ rest, fieldChecks (sealedImage 2 0) = [] ++ (CheckCode.version, false) :: rest := by
  refine ⟨rfl, rfl, booting_carriesNothing, rfl, by decide +kernel, by decide +kernel, rfl, rfl,
    carriesNothing rfl rfl rfl rfl rfl, rfl, ?_, ?_, ?_⟩
  · rw [sealedImage_text, sealedImage_crc]
    intro h
    have k := congrArg (fun x => x.getLsbD 0) h
    rw [BitVec.getLsbD_append] at k
    simp at k
  · exact (crcAgrees_iff _).1 (sealedImage_agrees 2)
  · have k : (imgByte (sealedImage 2 0) 0 == 1) = false := by decide +kernel
    unfold fieldChecks
    rw [k]
    exact ⟨_, rfl⟩

theorem witness_GoodImageEntersJoining :
    booting.loader.station = .configuring ∧ booting.held = false ∧ failedCheckOf (sealedImage 1 0) = none
      ∧ booting.pub.deferred = [] :=
  ⟨rfl, rfl, test_image_is_accepted, rfl⟩

/-- The accepted image carries every duty and a rule in use, so each range is one of a duty present; its inputs are assigned, with
FLOW and a brush channel among them, and a spray valve is tied to another station's arm. -/
theorem witness_AcceptedImageIsInRange :
    failedCheckOf (sealedImage 1 0) = none ∧ imgDuties (sealedImage 1 0) = ⟨true, true, true, true, true⟩
      ∧ (imgRule (sealedImage 1 0) 0).inUse = true
      ∧ [0, 1, 2, 3, 4, 5].map (imgPulseFn (sealedImage 1 0)) = [.wheel, .engine, .brushA, .brushB, .flow, .unused]
      ∧ ((imgParams (sealedImage 1 0)).water.sprays[0].line, (imgParams (sealedImage 1 0)).water.sprays[0].tie)
        = (some 1, .arm 2 .a) :=
  ⟨test_image_is_accepted, by decide +kernel, by decide +kernel, by decide +kernel, by decide +kernel⟩

theorem witness_JoinTimerOpensPublication :
    let s : State := { staged .joining station with
      loader := { station.loader with station := .joining, joinDue := some 10000 }
      pub := { station.pub with deferred := [{ aNotice with enqueued := some 9900 }] } }
    s.loader.station = .joining ∧ s.loader.joinDue = some 10000 ∧ 10000 ≤ s.micros / 1000 ∧ s.pub.list = []
      ∧ (∀ e ∈ s.pub.deferred, e.kind = .event) ∧ publishes s.duties .armA = true := by decide +kernel

/-- A station in CONFIG_FAULT with some of its notices not yet sent. -/
def faulted (n : Nat) : State := { State.atReset false 2 with
  micros := 9000000
  loader := ⟨.configFault, 2, .failed, some .stepList, 1, none, none⟩
  pub := { State.resetPub with configBadDue := some 9000, list := List.replicate n aNotice } }

theorem witness_ConfigBadTimerSendsANotice :
    (faulted 3).loader.station = .configFault ∧ (faulted 3).pub.configBadDue = some 9000 ∧ 9000 ≤ (faulted 3).micros / 1000
      ∧ (faulted 3).loader.failedCheck = some .stepList ∧ placesTaken (faulted 3) < 4 ∧ 4 ≤ placesTaken (faulted 4)
      ∧ (faulted 3).pub.list.Pairwise (fun a b => a.header.toNat ≤ b.header.toNat)
      ∧ (faulted 4).pub.list.Pairwise (fun a b => a.header.toNat ≤ b.header.toNat) := by decide +kernel

/-- A CLEAR of every item on a station SAFE through the two causes no CLEAR takes away. -/
theorem witness_ImageAndConflictStandUntilReset :
    let s := causes ⟨false, true, false, true, true⟩ (queued .controlIn 0xA902 [15, 15] station)
    Instr.eventHandlerTake ≠ .resetAsserted ∧ (∀ straps, Instr.eventHandlerTake ≠ .stationReset straps)
      ∧ (∃ t, exec .eventHandlerTake s = .next t) ∧ s.safe.causes.addressConflict = true
      ∧ s.safe.causes.configBad = true ∧ s.loader.station ≠ .configuring :=
  ⟨by decide, fun _ => by simp, ⟨_, rfl⟩, rfl, rfl, by decide⟩

/-- The station while a frame is being collected. -/
def inFrame : State := { station with link := { station.link with receiver := .inFrame } }

theorem witness_IdleAndFramingErrorsMoveTheReceiver :
    let aborting := sending .abort aPace station
    inFrame.loader.station ≠ .configuring ∧ inFrame.link.receiver = .inFrame ∧ inFrame.link.transmitter ≠ .contend
      ∧ inFrame.link.transmitter ≠ .send ∧ station.link.receiver ≠ .inFrame
      ∧ aborting.link.transmitter = .abort ∧ aborting.loader.station ≠ .configuring := by decide

/-- A frame of no payload and one of fifteen bytes, the ends of the range of L, at an empty queue and at a full one. -/
theorem witness_CompletedFrameIsCheckedAndHeld :
    let full := { inFrame with link := { inFrame.link with holding := List.replicate 4 ⟨.others, 0x0830, 1, []⟩ } }
    ([] : List Byte).length = (0x30 : Byte).toNat % 16 ∧ (List.replicate 15 (9 : Byte)).length = (0x3F : Byte).toNat % 16
      ∧ inFrame.link.receiver = .inFrame ∧ inFrame.link.transmitter ≠ .contend ∧ inFrame.link.transmitter ≠ .send
      ∧ crc16 ([0x08, 0x30, 1] ++ []) = (0x70 : Byte) ++ (0x89 : Byte)
      ∧ ¬crc16 ([0x08, 0x30, 1] ++ []) = (0x70 : Byte) ++ (0x88 : Byte)
      ∧ inFrame.link.holding.length < 4 ∧ 4 ≤ full.link.holding.length := by decide +kernel

theorem witness_SentFrameIsReadBack :
    aPace.payload.length = headerLength aPace.header ∧ inFrame.link.receiver = .inFrame
      ∧ inFrame.link.transmitter ≠ .contend ∧ inFrame.link.transmitter ≠ .send ∧ inFrame.link.holding.length < 4 := by
  decide +kernel

/-- A station that may send; one with an empty list, one in MUTE and one that still ends an abort, which may not. -/
theorem witness_StartBitTakesTheHeadOfTheList :
    let s := listed [aPace, anArmRecord] station
    let aborting := { sending .abort aPace s with link := { (sending .abort aPace s).link with receiver := .waiting } }
    s.link.state = .on ∧ s.link.receiver = .waiting ∧ s.link.transmitter = .quiet ∧ s.pub.list = aPace :: [anArmRecord]
      ∧ station.link.receiver = .waiting ∧ station.pub.list = []
      ∧ { s.link with state := .mute }.state ≠ .on
      ∧ aborting.link.receiver = .waiting ∧ aborting.link.transmitter ≠ .quiet ∧ inFrame.link.receiver ≠ .waiting
      ∧ (sending .contend aPace s).link.transmitter = .contend := by decide +kernel

/-- A contest lost, and an abort at the highest tally that does not mute. -/
theorem witness_FrameNotSentReturnsToTheList :
    let lost := listed [anArmRecord] (sending .contend aPace station)
    let aborted := listed [aPace, anArmRecord] (sending .abort aPace station)
    let s := { aborted with link := { aborted.link with tally := 119 } }
    lost.link.inHand = some aPace ∧ lost.link.transmitter = .contend
      ∧ lost.pub.list.Pairwise (fun a b => a.header.toNat ≤ b.header.toNat)
      ∧ s.link.inHand = some aPace ∧ s.link.transmitter = .abort ∧ s.link.abortDue = some 10000000 ∧ 10000000 ≤ s.micros
      ∧ s.link.tally + 8 < 128 ∧ s.pub.list.Pairwise (fun a b => a.header.toNat ≤ b.header.toNat) := by decide +kernel

/-- A contest and a frame sent that fail; an abort at the lowest tally that mutes, with the cause new and held; and a MUTE whose
time is up. -/
theorem witness_AbortsAndMuteRunTheirCourse :
    let aborted := sending .abort aPace station
    let s := { aborted with link := { aborted.link with tally := 120 } }
    let held := causes ⟨false, false, true, false, false⟩ s
    let muted := { station with link := { station.link with state := .mute, tally := 135, muteDue := some 10000 } }
    (sending .contend aPace station).link.transmitter = .contend ∧ (sending .send aPace station).link.transmitter = .send
      ∧ (sending .send aPace station).link.bitRate = some .k250
      ∧ s.link.transmitter = .abort ∧ s.link.abortDue = some 10000000 ∧ 10000000 ≤ s.micros ∧ s.link.inHand = some aPace
      ∧ 128 ≤ s.link.tally + 8 ∧ s.safe.causes.linkMute = false ∧ s.loader.station = .operating ∧ placesTaken s < 4
      ∧ isSafe s = false ∧ held.safe.causes.linkMute = true ∧ isSafe held = true
      ∧ muted.link.state = .mute ∧ muted.link.muteDue = some 10000 ∧ 10000 ≤ muted.micros / 1000 := by decide +kernel

/-- A cyclic frame sent, an event with nothing dropped and in JOINING, and one that frees a place while two are dropped; the
holding queue with a place and without. -/
theorem witness_TransmitSuccessEchoesTheFrame :
    let cyclic := sending .send aPace station
    let none := listed [aNotice] (sending .send aNotice station)
    let event := listed [aNotice] (sending .send aNotice { station with pub := { station.pub with dropped := 2 } })
    cyclic.link.transmitter = .send ∧ cyclic.link.inHand = some aPace ∧ aPace.kind = .cyclic
      ∧ none.link.transmitter = .send ∧ none.link.inHand = some aNotice ∧ none.pub.dropped = 0
      ∧ (staged .joining event).loader.station ≠ .operating
      ∧ event.link.transmitter = .send ∧ event.link.inHand = some aNotice ∧ aNotice.kind = .event ∧ 0 < event.pub.dropped
      ∧ event.loader.station = .operating ∧ (event.pub.list.filter (fun x => x.kind == .event)).length < 4
      ∧ event.pub.list.Pairwise (fun a b => a.header.toNat ≤ b.header.toNat)
      ∧ event.link.holding.length < 4 ∧ ¬(List.replicate 4 (⟨.others, 0x0830, 1, []⟩ : HeldFrame)).length < 4 := by
  decide +kernel

/-- A frame that no rule matches; a frame below its rule's minimum and one at it; and one rule of each destination. -/
theorem witness_FilterPassFollowsTheFirstMatch :
    station.loader.station ≠ .configuring ∧ station.picture.store = none
      ∧ (∀ i : Fin 24, ¬RuleMatches table0[i] ⟨.others, 0x0350, 1, []⟩)
      ∧ headerSource 0x0350 ≠ station.loader.address
      ∧ FirstMatch table0 ⟨.others, 0xF465, 1, [1, 2, 3, 4, 5]⟩ 8 ∧ headerLength 0xF465 < table0[8].minLength.toNat
      ∧ FirstMatch table0 ⟨.others, 0xF466, 1, [1, 2, 3, 4, 5, 6]⟩ 8 ∧ table0[8].minLength.toNat ≤ headerLength 0xF466
      ∧ ruleDestination table0[8] = .slotAndQueue
      ∧ FirstMatch table0 ⟨.others, 0x0152, 1, [0, 4]⟩ 0 ∧ ruleDestination table0[0] = .queue
      ∧ FirstMatch table0 ⟨.others, 0x431C, 1, [7, 208, 7, 208, 0, 2, 0, 0, 0, 13, 5, 38]⟩ 4
      ∧ ruleDestination table0[4] = .slot := by
  refine ⟨?_, ?_, ?_, ?_, ?_, ?_, ?_, ?_, ?_, ?_, ?_, ?_, ?_⟩ <;> try unfold FirstMatch
  all_goals try unfold RuleMatches
  all_goals decide +kernel

/-- An event queue of a HALT and some notices. -/
def events (n : Nat) : Picture :=
  { State.resetPicture with events := ⟨.haltIn, 0x0152, 1, [0, 4]⟩ :: List.replicate n ⟨.noticeIn, 0x8853, 1, [0, 0, 0]⟩ }

/-- Fifteen entries, sixteen with a notice to displace, and sixteen HALTs. -/
theorem witness_FullEventQueueKeepsHalts :
    (events 14).events.length < 16 ∧ (events 15).events.length = 16
      ∧ (events 15).events = [⟨.haltIn, 0x0152, 1, [0, 4]⟩] ++ ⟨.noticeIn, 0x8853, 1, [0, 0, 0]⟩
        :: List.replicate 14 ⟨.noticeIn, 0x8853, 1, [0, 0, 0]⟩
      ∧ (∀ y ∈ [(⟨.haltIn, 0x0152, 1, [0, 4]⟩ : EventEntry)], y.label = .haltIn)
      ∧ (List.replicate 16 (⟨.haltIn, 0x0152, 1, [0, 4]⟩ : EventEntry)).length = 16
      ∧ (∀ y ∈ List.replicate 16 (⟨.haltIn, 0x0152, 1, [0, 4]⟩ : EventEntry), y.label = .haltIn) := by decide +kernel

/-- A frame of a topic no rule names, and a TRAVEL (to a slot), from this station's own address. -/
theorem witness_OwnAddressFromOthersIsAConflict :
    let s := holding ⟨.others, 0x0310, 1, []⟩ station
    s.loader.station ≠ .configuring ∧ s.picture.store = none ∧ s.link.holding = ⟨.others, 0x0310, 1, []⟩ :: []
      ∧ s.loader.address ≠ 15 ∧ headerSource 0x0310 = s.loader.address ∧ s.safe.causes.addressConflict = false
      ∧ (∀ i : Fin 24, ¬RuleMatches table0[i] ⟨.others, 0x0310, 1, []⟩)
      ∧ FirstMatch table0 ⟨.others, 0x431C, 1, [7, 208, 7, 208, 0, 2, 0, 0, 0, 13, 5, 38]⟩ 4
      ∧ table0[4].minLength.toNat ≤ headerLength 0x431C ∧ headerSource 0x431C = s.loader.address
      ∧ ruleDestination table0[4] = .slot ∧ s.loader.station = .operating
      ∧ isSafe s = false ∧ isSafe (causes ⟨false, true, false, false, false⟩ s) = true := by
  refine ⟨?_, ?_, ?_, ?_, ?_, ?_, ?_, ?_, ?_, ?_, ?_, ?_, ?_, ?_⟩ <;> try unfold FirstMatch
  all_goals try unfold RuleMatches
  all_goals decide +kernel

/-- For the same statement: a HALT (to the queue) of station 1, and at station 6 a class 7 frame (to both) at its rule's minimum
and below it. -/
theorem witness_OwnAddressFromOthersIsAConflict_queued :
    headerSource 0x0112 = station.loader.address ∧ headerSource 0xF465 = 6 ∧ headerSource 0xF466 = 6
      ∧ FirstMatch table0 ⟨.others, 0x0112, 1, [0, 4]⟩ 0 ∧ table0[0].minLength.toNat ≤ headerLength 0x0112
      ∧ ruleDestination table0[0] = .queue
      ∧ FirstMatch table0 ⟨.others, 0xF465, 1, [1, 2, 3, 4, 5]⟩ 8 ∧ headerLength 0xF465 < table0[8].minLength.toNat
      ∧ FirstMatch table0 ⟨.others, 0xF466, 1, [1, 2, 3, 4, 5, 6]⟩ 8 ∧ table0[8].minLength.toNat ≤ headerLength 0xF466
      ∧ ruleDestination table0[8] = .slotAndQueue := by
  refine ⟨?_, ?_, ?_, ?_, ?_, ?_, ?_, ?_, ?_, ?_, ?_⟩ <;> try unfold FirstMatch
  all_goals try unfold RuleMatches
  all_goals decide +kernel

theorem witness_StoreCompletionWritesTheSlot :
    let f : HeldFrame := ⟨.others, 0x431C, 0, [7, 208, 7, 208, 0, 2, 0, 0, 0, 13, 5, 38]⟩
    let s := { holding f station with picture := { station.picture with store := some 4 } }
    s.picture.store = some 4 ∧ s.link.holding = f :: [] ∧ s.picture.table[4].slotNumber.toNat = (0 : Fin 32).val := by
  decide +kernel

/-- A FRESH and an AGED slot whose deadline has just come, a LOST slot, an EMPTY one, and one whose deadline is to come. -/
theorem witness_SlotDeadlineAgesTheSlot :
    let aged := slots0.set 7 (aSlot .aged 3 0x2225 [1, 13, 5, 0, 6] (some 10000))
    (slots0[7].record.map fun r => (r.age, r.deadline)) = some (.fresh, some 10000) ∧ 10000 ≤ station.micros / 1000
      ∧ (aged[7].record.map fun r => (r.age, r.deadline)) = some (.aged, some 10000)
      ∧ (slots0[8].record.map SlotRecord.deadline) = some none ∧ slots0[20].record = none
      ∧ (slots0[0].record.map SlotRecord.deadline) = some (some 10090) ∧ station.micros / 1000 < 10090 := by decide +kernel

/-- A slot with a record, an EMPTY one that a rule names and one that none names; both labels read as one slot, heard and not; and
records shorter than a field. -/
theorem witness_LabelsFindTheirSlots :
    let lost := { station with picture := { station.picture with slots := slots0.set 1 (aSlot .lost 5 0x4407 [2] none) } }
    slotLabel station.picture 7 = some .paceIn ∧ slotRequired station.picture 7 = true
      ∧ slotLabel station.picture 10 = some .paceIn ∧ station.picture.slots[10].record = none
      ∧ slotRequired station.picture 10 = false ∧ slotLabel station.picture 20 = none
      ∧ slotsOf station.picture .paceIn = [7, 8, 10]
      ∧ (operatorRecord station).map SlotRecord.payload = some [2, 0, 2, 174, 0x40, 0, 60]
      ∧ (travelRecord station).isSome = true ∧ operatorRecord lost = none
      ∧ wordAt [2, 0, 2, 174] 2 = 686 ∧ wordAt [2, 0, 2] 2 = 0 ∧ byteAt [2] 1 = 0 ∧ longAt [1, 2] 0 = 0 := by decide +kernel

/-- An arm that works beside one at rest, a water duty that works and one that does not, a last urgency below STOP and at it,
and a station without duties. -/
theorem witness_PeerHaltPutsTheStationInSafe :
    let s := { queued .haltIn 0x0152 [0, 4] station with armA := { anArm .sweeping with engaged := true } }
    let few := { queued .haltIn 0x0152 [0, 4] (faulted 0) with picture :=
      { (faulted 0).picture with events := [⟨.haltIn, 0x0152, 7, [0, 4]⟩] } }
    let stopped := { s with water := { s.water with state := .off }, pub := { s.pub with lastUrgency := .stop } }
    headEntry s ⟨.haltIn, 0x0152, 7, [0, 4]⟩ [] .haltIn .halt ∧ isSafe s = false ∧ armPresent s .a = true
      ∧ (s.arm .a).state ≠ .stowed ∧ (s.arm .a).state ≠ .fault ∧ (s.arm .b).state = .stowed ∧ s.duties.water = true
      ∧ s.water.state = .spraying ∧ s.loader.station = .operating ∧ publishes s.duties .pace = true
      ∧ UrgencyRises (after .eventHandlerTake s) s.pub.lastUrgency
      ∧ headEntry stopped ⟨.haltIn, 0x0152, 7, [0, 4]⟩ [] .haltIn .halt ∧ isSafe stopped = false ∧ stopped.water.state = .off
      ∧ ¬UrgencyRises (after .eventHandlerTake stopped) stopped.pub.lastUrgency
      ∧ headEntry few ⟨.haltIn, 0x0152, 7, [0, 4]⟩ [] .haltIn .halt ∧ armPresent few .a = false
      ∧ few.duties.water = false := by
  unfold headEntry UrgencyRises
  decide +kernel

/-- A drive at 49 mm/s, and an arm in FAULT through the SAFE entry beside one STOWED. -/
theorem witness_ClearReleasesSafe :
    let s := causes ⟨false, true, true, false, false⟩ { queued .controlIn 0xA902 [15, 1] station with
      armA := anArm .fault
      drive := { station.drive with state := .halting, vm := 49 } }
    clearAtHead s [] 1 ∧ isSafe s = true ∧ (∀ c, hasCause s.safe.causes c = true → CauseGone s c)
      ∧ (s.duties.drive = true → s.drive.vm < 50) ∧ armPresent s .a = true ∧ (s.arm .a).state = .fault
      ∧ (s.arm .a).cause = .stationSafe ∧ (s.arm .b).state ≠ .fault ∧ s.loader.station = .operating := by
  refine ⟨⟨⟨.controlIn, 0xA902, 7, [15, 1]⟩, ?_, rfl, .inr rfl⟩, by decide +kernel, ?_, by decide +kernel, by decide +kernel,
    by decide +kernel, by decide +kernel, by decide +kernel, rfl⟩
  · unfold headEntry; decide +kernel
  · intro c h
    cases c
    · exact absurd h (by decide +kernel)
    · trivial
    · exact (rfl : LinkState.on = .on)
    · exact absurd h (by decide +kernel)
    · exact absurd h (by decide +kernel)

/-- A refusal by a link in MUTE, and one by the drive's speed alone, at 50 mm/s. -/
theorem witness_RefusedReleaseNamesACause :
    let muted := causes ⟨false, true, true, false, false⟩ { queued .controlIn 0xA902 [1, 1] station with
      link := { station.link with state := .mute, muteDue := some 10400, tally := 133 } }
    let moving := causes ⟨false, true, false, false, false⟩ { queued .controlIn 0xA902 [1, 1] station with
      drive := { station.drive with state := .halting, vm := 50 } }
    (clearAtHead muted [] 1 ∧ muted.loader.station = .operating ∧ hasCause muted.safe.causes .linkMute = true
        ∧ ¬CauseGone muted .linkMute
        ∧ (∀ b, causeNumber b < causeNumber .linkMute → hasCause muted.safe.causes b = true → CauseGone muted b)
        ∧ placesTaken muted < 4 ∧ muted.pub.list = [])
      ∧ clearAtHead moving [] 1 ∧ hasCause moving.safe.causes .peerHalt = true
      ∧ (∀ b, hasCause moving.safe.causes b = true → CauseGone moving b) ∧ moving.duties.drive = true ∧ 50 ≤ moving.drive.vm
      ∧ (∀ b, causeNumber b < causeNumber .peerHalt → hasCause moving.safe.causes b = false) := by
  refine ⟨⟨⟨⟨.controlIn, 0xA902, 7, [1, 1]⟩, ?_, rfl, .inl rfl⟩, rfl, rfl, ?_, ?_, by decide +kernel, rfl⟩,
    ⟨⟨.controlIn, 0xA902, 7, [1, 1]⟩, ?_, rfl, .inl rfl⟩, rfl, ?_, rfl, by decide +kernel, ?_⟩
  · unfold headEntry; decide +kernel
  · exact fun h => LinkState.noConfusion h
  · intro b lt h
    cases b
    · exact absurd h (by decide +kernel)
    · trivial
    all_goals exact absurd lt (by decide)
  · unfold headEntry; decide +kernel
  · intro b h
    cases b
    · exact absurd h (by decide +kernel)
    · trivial
    all_goals exact absurd h (by decide +kernel)
  · intro b lt
    cases b
    · decide +kernel
    all_goals exact absurd lt (by decide)

/-- A water duty that works, and one in FAULT on a station whose drive's claim asks for more urgency than the last PACE and on one
where nothing does. -/
theorem witness_LatchesClearEveryFlag :
    let s := queued .controlIn 0xA902 [15, 2] station
    let failed := { s with water := { station.water with state := .fault } }
    let urgent := { failed with drive := { station.drive with claim := some ⟨0, .prompt, .wheelSensor⟩ } }
    clearAtHead s [] 2 ∧ s.water.state ≠ .fault ∧ clearAtHead failed [] 2 ∧ failed.duties.water = true
      ∧ failed.water.state = .fault ∧ failed.loader.station = .operating
      ∧ ¬UrgencyRises (after .eventHandlerTake failed) failed.pub.lastUrgency
      ∧ clearAtHead urgent [] 2 ∧ UrgencyRises (after .eventHandlerTake urgent) urgent.pub.lastUrgency := by
  refine ⟨⟨⟨.controlIn, 0xA902, 7, [15, 2]⟩, ?_, rfl, .inr rfl⟩, by decide +kernel,
    ⟨⟨.controlIn, 0xA902, 7, [15, 2]⟩, ?_, rfl, .inr rfl⟩, rfl, rfl, rfl, ?_,
    ⟨⟨.controlIn, 0xA902, 7, [15, 2]⟩, ?_, rfl, .inr rfl⟩, ?_⟩ <;> first | unfold headEntry | unfold UrgencyRises
  all_goals decide +kernel

/-- An arm item for an arm in FAULT, for the other arm, and on a SAFE station and one in JOINING; no item; and every item. -/
theorem witness_ClearTakesItsItemsInOrder :
    let s (items : Byte) := { queued .controlIn 0xA902 [15, items] station with armA := anArm .fault }
    let safe := causes ⟨false, true, false, false, false⟩ (s 4)
    (∀ items ∈ [(0 : Byte), 4, 8, 15, 16], headEntry (s items) ⟨.controlIn, 0xA902, 7, [15, items]⟩ [] .controlIn .clear)
      ∧ byteAt [15, 4] 0 = 15 ∧ byteAt [15, 4] 1 = 4 ∧ (s 4).loader.station = .operating ∧ armPresent (s 4) .a = true
      ∧ ((s 4).arm .a).state = .fault ∧ isSafe (s 4) = false ∧ ((s 8).arm .b).state ≠ .fault
      ∧ isSafe safe = true ∧ (staged .joining (s 4)).loader.station ≠ .operating
      ∧ byteAt [15, 0] 1 % 16 = 0 ∧ byteAt [15, 16] 1 % 16 = 0
      ∧ (∀ bit ∈ [1, 2, 4, 8], byteAt [15, 15] 1 / bit % 2 = 1)
      ∧ ((after .eventHandlerTake (s 4)).armA.state, (after .eventHandlerTake safe).armA.state) = (.retracting, .fault) := by
  unfold headEntry
  decide +kernel

theorem witness_QueryIsAnsweredByAReport :
    let s (what : Byte) := listed [aNotice, aNotice, aNotice] (queued .controlIn 0xCA62 [1, what] station)
    headEntry (s 0) ⟨.controlIn, 0xCA62, 7, [1, 0]⟩ [] .controlIn .query
      ∧ headEntry (s 1) ⟨.controlIn, 0xCA62, 7, [1, 1]⟩ [] .controlIn .query
      ∧ byteAt [1, 0] 0 = (s 0).loader.address.toNat ∧ (s 0).loader.address ≠ 15 ∧ (s 0).loader.station = .operating
      ∧ placesTaken (s 0) < 4 ∧ (s 0).pub.list.Pairwise (fun a b => a.header.toNat ≤ b.header.toNat)
      ∧ byteAt [1, 0] 1 ≠ 1 ∧ byteAt [1, 1] 1 = 1 := by
  unfold headEntry
  decide +kernel

/-- A NOTICE with the console and without; and the headers and targets of entries that nobody takes. -/
theorem witness_NoticeLightsTheLampOthersAreDropped :
    let s := queued .noticeIn 0x8853 [0, 0, 0] station
    let none := { s with duties := { s.duties with console := false } }
    s.loader.station ≠ .configuring ∧ s.picture.events = ⟨.noticeIn, 0x8853, 7, [0, 0, 0]⟩ :: []
      ∧ headerTopic 0x8853 = topicNumber .notice ∧ s.duties.console = true ∧ none.duties.console = false
      ∧ headerTopic 0x0152 ≠ topicNumber .notice ∧ headerTopic 0x8853 ≠ topicNumber .halt
      ∧ headerTopic 0x8853 ≠ topicNumber .clear ∧ headerTopic 0x8853 ≠ topicNumber .query
      ∧ headerTopic 0xA902 = topicNumber .clear ∧ headerTopic 0xCA62 = topicNumber .query
      ∧ byteAt [2, 1] 0 ≠ s.loader.address.toNat ∧ byteAt [2, 1] 0 ≠ 15 ∧ byteAt [15, 1] 0 = 15 := by decide +kernel

/-- In each station state; not SAFE, SAFE, and SAFE with the drive HALTING; lines with a role, one without, and no line twice. -/
theorem witness_OutputLinesFollowSafeControl :
    let safe := causes ⟨false, true, false, false, false⟩ station
    let halting := { safe with drive := { safe.drive with state := .halting } }
    (staged .joining station).loader.station = .joining ∧ booting.loader.station = .configuring
      ∧ (faulted 0).loader.station = .configFault ∧ isSafe station = false ∧ isSafe safe = true
      ∧ safe.drive.state ≠ .halting ∧ halting.drive.state = .halting ∧ halting.params.drive.fwdLine = some 0
      ∧ halting.params.drive.revLine = some 1 ∧ (14 : Fin 16) ∉ valveRoles station.duties station.params
      ∧ (7 : Fin 8) ∉ pwmRoles station.duties station.params
      ∧ noRepeat (valveRoles station.duties station.params) = true
      ∧ noRepeat (pwmRoles station.duties station.params) = true := by decide +kernel

/-- A free place; four places taken with events that give way to a HALT, the later of two equal ones first, and with HALTs alone;
four events deferred in JOINING; and a station in CONFIG_FAULT. -/
theorem witness_EventRequestsKeepTheirPlaces :
    let halt : TxEntry := ⟨.event, 0x0112, 1, [0, 4], some 9000⟩
    let full := listed [halt, halt, aNotice, { aNotice with seq := 4 }] station
    let joining := { staged .joining station with pub := { station.pub with deferred := [aNotice, halt, halt, halt] } }
    station.loader.station = .operating ∧ placesTaken station < 4 ∧ 4 ≤ placesTaken full
      ∧ full.pub.list.Pairwise (fun a b => a.header.toNat ≤ b.header.toNat)
      ∧ GivesWay [halt, halt, aNotice] { aNotice with seq := 4 } []
      ∧ (requestEvent .halt [0, 4] full).pub.list.map TxEntry.seq = [1, 1, 0, 3]
      ∧ OnlyHalts (List.replicate 4 halt) ∧ 4 ≤ placesTaken (listed (List.replicate 4 halt) station)
      ∧ joining.loader.station = .joining ∧ 4 ≤ joining.pub.deferred.length ∧ GivesWay [] aNotice [halt, halt, halt]
      ∧ (faulted 0).loader.station = .configFault := by
  unfold GivesWay OnlyHalts
  decide +kernel

theorem witness_PeriodTimerPublishesItsTopic :
    let s := listed [{ anArmRecord with header := 0x651C }] station
    s.loader.station = .operating ∧ publishes s.duties .pace = true ∧ publishes s.duties .armA = true
      ∧ s.pub.timers[cyclicIndex .pace] = some 10000 ∧ s.pub.timers[cyclicIndex .armA] = some 10000
      ∧ 10000 ≤ s.micros / 1000 ∧ s.pub.list.Pairwise (fun a b => a.header.toNat ≤ b.header.toNat)
      ∧ ¬PendingCyclic (topicHeader .pace s.loader.address) s.pub.list
      ∧ PendingCyclic (topicHeader .armA s.loader.address) s.pub.list := by
  unfold PendingCyclic
  decide +kernel

theorem witness_PaceEngineChoosesTheLeastCeiling :
    let deaf := { station with picture := { station.picture with slots := slots0.set 1 ⟨none, false⟩ } }
    station.params.drive.transportMax ≤ 6000 ∧ station.params.drive.sweepMax ≤ 6000 ∧ (ownEntry station).ceiling ≤ 6000
      ∧ (operatorRecord station).isSome = true ∧ operatorRecord deaf = none ∧ station.drive.claim.isSome = true := by
  decide +kernel

/-- The station with a slot of its picture replaced. -/
def seeing (n : Fin 32) (x : Slot) : State :=
  { station with picture := { station.picture with slots := slots0.set n x } }

/-- A slot FRESH, AGED above the aged creep and at it, of another topic, LOST and EMPTY. -/
theorem witness_PaceSlotsBoundTheCeiling :
    slotLabel station.picture 7 = some .paceIn
      ∧ (station.picture.slots[7].record.map fun r => (r.age, headerTopic r.header)) = some (.fresh, topicNumber .pace)
      ∧ slotLabel (seeing 7 (aSlot .fresh 3 0x8825 [0, 0, 0, 0, 0] (some 10050))).picture 7 = some .paceIn
      ∧ headerTopic 0x8825 ≠ topicNumber .pace
      ∧ slotLabel (seeing 7 (aSlot .aged 3 0x2225 [1, 3, 33, 0, 2] (some 10050))).picture 7 = some .paceIn
      ∧ station.params.drive.agedCreep < min 6000 (wordAt [1, 3, 33, 0, 2] 1)
      ∧ min 6000 (wordAt [1, 3, 32, 0, 2] 1) ≤ station.params.drive.agedCreep
      ∧ slotLabel station.picture 8 = some .paceIn
      ∧ (station.picture.slots[8].record.map SlotRecord.age) = some .lost
      ∧ slotLabel station.picture 10 = some .paceIn ∧ station.picture.slots[10].record = none := by decide +kernel

theorem witness_CombinedClaimIsTheMostLimiting :
    (combinedClaim station).isSome = true ∧ combinedClaim (faulted 0) = none
      ∧ (faulted 0).duties = ⟨false, false, false, false, false⟩ := by decide +kernel

/-- The WHEEL channel TRACKING and LOST, where the claim asks for more urgency than the last PACE, with no PACE pending and with
one. -/
theorem witness_DrivePeriodArithmetic :
    let lost := { station with inputs := { inputs0 with pulse := inputs0.pulse.set 0 ⟨.wheel, .lost, 0, none, none, 0⟩ } }
    driveDue station 10000 ∧ (driveWork image0.drive (driveInputs station) (paceRun station) 0 0 station.drive).state = .running
      ∧ fnState station .wheel ≠ some .lost ∧ driveDue lost 10000 ∧ fnState lost .wheel = some .lost
      ∧ ¬UrgencyRises (after .drivePeriodExpiry station) station.pub.lastUrgency
      ∧ UrgencyRises (after .drivePeriodExpiry lost) lost.pub.lastUrgency ∧ lost.pub.list = []
      ∧ driveDue (listed [aPace] lost) 10000 ∧ PendingCyclic (topicHeader .pace lost.loader.address) [aPace] := by
  unfold driveDue UrgencyRises PendingCyclic
  decide +kernel

/-- The station with its drive in a state, and what its operator asks for. -/
def driven (d : DriveState) (mode : Byte) (pedal : Nat) (n vm v : Nat) : State :=
  { seeing 1 (aSlot .fresh 5 0x4407 [mode, 0, byteOf (pedal / 256), byteOf pedal, 0, 0, 0] (some 10090)) with
    drive := { station.drive with state := d, v := v, standstill := if v = 0 then some 9000 else none }
    inputs := { inputs0 with pulse := (inputs0.pulse.set 0 (aChannel .wheel vm)).set 1 (aChannel .engine n) } }

/-- Every row of the drive's table can be taken: the requested mode, the engine at its minimum and just below, pedal 0 and above,
V and Vm at rest, and the standstill timer at 1000 ms. -/
theorem witness_DriveStateFollowsItsTable :
    let new (s : State) := (after .drivePeriodExpiry s).drive.state
    (∀ s ∈ [driven .parked 2 0 700 0 0, driven .parked 2 0 699 0 0, driven .standing 0 0 700 0 0, driven .standing 2 500 700 0 0,
        driven .standing 2 0 700 0 0, driven .running 2 0 699 0 8, driven .running 2 0 700 0 0, driven .running 2 500 700 0 8,
        driven .halting 2 0 700 49 0, driven .halting 2 0 700 50 0, driven .held 0 0 700 0 0, driven .held 2 0 800 0 0,
        driven .held 2 0 799 0 0], driveDue s 10000)
      ∧ new (driven .parked 2 0 700 0 0) = .standing ∧ new (driven .parked 2 0 699 0 0) = .parked
      ∧ new (driven .standing 0 0 700 0 0) = .parked ∧ new (driven .standing 2 500 700 0 0) = .running
      ∧ new (driven .standing 2 0 700 0 0) = .standing ∧ new (driven .running 2 0 699 0 8) = .halting
      ∧ new (driven .running 2 0 700 0 0) = .standing ∧ new (driven .running 2 500 700 0 8) = .running
      ∧ new (driven .halting 2 0 700 49 0) = .held ∧ new (driven .halting 2 0 700 50 0) = .halting
      ∧ new (driven .held 0 0 700 0 0) = .parked ∧ new (driven .held 2 0 800 0 0) = .standing
      ∧ new (driven .held 2 0 799 0 0) = .held := by
  unfold driveDue
  decide +kernel

/-- The station with its first pulse channel replaced. -/
def wheeled (c : PulseChannel) : State := { station with inputs := { inputs0 with pulse := inputs0.pulse.set 0 c } }

/-- An edge one microsecond too early and one just in time; the channel STOPPED, TRACKING, ONE_MISSING, and LOST on its seventh
and on its eighth edge; and LOST with no edge yet. -/
theorem witness_PulseEdgeMovesTheChannel :
    let early := wheeled { aChannel .wheel 2000 with lastEdge := some 9998001 }
    let timely (st : ChannelState) (n : Nat) := wheeled ⟨.wheel, st, 0, some 9998000, none, n⟩
    early.loader.station = .operating ∧ early.inputs.pulse[0].fn ≠ .unused
      ∧ interval early.micros 9998001 < (pulseConst early.params .wheel).minSpacing
      ∧ (pulseConst early.params .wheel).minSpacing ≤ interval (timely .stopped 0).micros 9998000
      ∧ (timely .stopped 0).inputs.pulse[0].lastEdge = some 9998000
      ∧ ((timely .stopped 0).inputs.pulse[0].state, (timely .tracking 0).inputs.pulse[0].state,
          (timely .oneMissing 0).inputs.pulse[0].state) = (.stopped, .tracking, .oneMissing)
      ∧ (timely .lost 6).inputs.pulse[0].recovery + 1 < 8 ∧ 8 ≤ (timely .lost 7).inputs.pulse[0].recovery + 1
      ∧ (wheeled ⟨.wheel, .lost, 0, none, none, 0⟩).inputs.pulse[0].lastEdge = none
      ∧ interval (timely .lost 7).micros 9998000 ≤ (pulseConst early.params .wheel).windowSteps * 10000 := by decide +kernel

theorem witness_PulseDeadlinesMoveTheChannel :
    let c := { aChannel .wheel 2000 with lastEdge := some 9968600 }
    let still := { wheeled { c with lastEdge := some 9952900 } with drive := { station.drive with v := 299 } }
    let silent := { station with armB := { anArm .sweeping with target := 300, expectSince := some 9500000 } }
    c.state = .tracking ∧ c.period = some 15700
      ∧ 2 * 15700 < (pulseConst station.params .wheel).windowSteps * 10000 ∧ 2 * 15700 ≤ interval station.micros 9968600
      ∧ 3 * 15700 ≤ interval still.micros 9952900 ∧ expectMotion still .wheel = false
      ∧ expectMotion (wheeled c) .wheel = true
      ∧ silent.inputs.pulse[3].state = .stopped ∧ expectMotion silent .brushB = true
      ∧ expectSince silent .brushB = some 9500000 ∧ silent.inputs.pulse[3].lastEdge = none
      ∧ (pulseConst silent.params .brushB).windowSteps * 10000 ≤ interval silent.micros 9500000
      ∧ armPresent silent .b = true ∧ (silent.arm .b).state ≠ .stowed ∧ (silent.arm .b).state ≠ .fault := by decide +kernel

/-- Readings at both ends of the good range and just outside, on an input IN_RANGE and on one with 98 and 99 good readings. -/
theorem witness_ConversionMovesTheRangeState :
    let recovering (n : Nat) := { station with inputs := { inputs0 with
      analog := inputs0.analog.set 2 { anInput .tank 0 with inRange := false, run := n } } }
    station.loader.station = .operating ∧ inputs0.analog[3].fn = .pedal ∧ inputs0.analog[3].inRange = true
      ∧ inputs0.analog[3].due ≤ station.micros / 1000 ∧ inputs0.analog[2].fn = .tank
      ∧ ((recovering 98).inputs.analog[2].inRange, (recovering 99).inputs.analog[2].run + 1) = (false, 100)
      ∧ (20 ≤ (20 : Permille).val ∧ (980 : Permille).val ≤ 980)
      ∧ ¬(20 ≤ (19 : Permille).val ∧ (19 : Permille).val ≤ 980) ∧ ¬(20 ≤ (981 : Permille).val ∧ (981 : Permille).val ≤ 980) := by
  decide +kernel

/-- An arm at a WAIT_ANGLE_ABOVE 700 and one at a WAIT_ANGLE_BELOW 80; a list whose last step is an angle wait; a reading that
leaves the range and meets a WAIT_ANGLE_BELOW 400 at once, or leaves it alone; and an arm with no angle wait. -/
theorem witness_AngleConversionReachesItsArm :
    let above := { station with armA := listing .deploying 7 .none }
    let below := { station with armA := listing .retracting 2 .none }
    let yielding := { station with armA := listing .yielding 2 .none }
    let last := { station with
      params := { image0 with armA := { leftArm with resume := [.waitAngle false 700] } }
      armA := listing .resuming 1 .none }
    above.loader.station = .operating ∧ above.inputs.analog[0].fn = angleFn .a ∧ above.inputs.analog[0].due ≤ above.micros / 1000
      ∧ armPresent above .a = true ∧ stepInProgress above .a = some (.waitAngle false 700)
      ∧ stepInProgress below .a = some (.waitAngle true 80) ∧ stepInProgress last .a = some (.waitAngle false 700)
      ∧ stepInProgress yielding .a = some (.waitAngle true 400) ∧ stepInProgress station .a = none
      ∧ (last.arm .a).remaining = 1 ∧ (last.arm .a).list = .resume ∧ above.inputs.analog[0].inRange = true
      ∧ (above.arm .a).state ≠ .stowed ∧ (above.arm .a).state ≠ .fault
      ∧ ¬(20 ≤ (19 : Permille).val ∧ (19 : Permille).val ≤ 980) ∧ (19 : Permille).val < 400
      ∧ ¬(700 < (700 : Permille).val) ∧ 700 < (701 : Permille).val := by decide +kernel

theorem witness_SwitchSamplesAreTakenAndHandedOn :
    let x := inputs0.switches
    let short := { aSwitch .mode2 false with run := 18 }
    station.loader.station = .operating ∧ (∀ i : Fin 8, x[i].fn ≠ .unused ∧ x[i].due ≤ station.micros / 1000)
      ∧ short.run + 1 < 20 ∧ (∀ i : Fin 8, 20 ≤ x[i].run + 1)
      ∧ (x[0].fn = deflectFn .a ∧ x[0].level = false) ∧ (x[1].fn = deflectFn .b ∧ x[1].level = true)
      ∧ (x[2].fn = .mode1 ∧ x[3].fn = .mode2 ∧ x[4].fn = .haltButton) ∧ (x[5].fn = .resetButton ∧ x[5].level = false)
      ∧ (x[6].fn = .deploy .left ∧ x[6].level = false) ∧ (x[7].fn = .retract .left ∧ x[7].level = true)
      ∧ station.console.pedal = 0 ∧ (staged .joining station).loader.station = .joining := by decide +kernel

/-- A brush that turns, with its channel TRACKING and LOST; one at rest; no TRAVEL heard; and a station in JOINING. -/
theorem witness_ArmPeriodReadsAndFormsTheBrush :
    let turning := { station with armA := { anArm .sweeping with engaged := true } }
    let joining := staged .joining station
    let lost := { turning with inputs := { inputs0 with pulse := inputs0.pulse.set 2 ⟨.brushA, .lost, 0, none, none, 0⟩ } }
    armDue station .a 10000 ∧ armDue turning .a 10000 ∧ armDue joining .a 10000 ∧ (operatorRecord station).isSome = true
      ∧ (travelRecord station).isSome = true ∧ brushRuns (after (.armPeriodExpiry .a) turning).armA = true
      ∧ fnState turning (brushFn .a) = some .tracking ∧ armTurns (turning.arm .a) = true ∧ (turning.arm .a).list = .none
      ∧ (after (.armPeriodExpiry .a) turning).armA.state = .sweeping
      ∧ armDue lost .a 10000 ∧ fnState lost (brushFn .a) = some .lost
      ∧ brushRuns (after (.armPeriodExpiry .b) station).armB = false
      ∧ travelRecord (seeing 0 ⟨none, false⟩) = none ∧ armDue (seeing 0 ⟨none, false⟩) .a 10000 := by
  unfold armDue
  decide +kernel

/-- The deploy condition found and not; the retract, the yield and the clear condition; and an arm in FAULT. -/
theorem witness_ArmStateFollowsItsTable :
    let asking (mode requests : Byte) (a : Arm) := { seeing 1 (aSlot .fresh 5 0x4407 [mode, 0, 0, 0, requests, 0, 0] (some 10090)) with
      armA := a }
    let new (s : State) := (after (.armPeriodExpiry .a) s).armA.state
    let deploy := asking 2 0x40 (anArm .stowed)
    let idle := asking 2 0 (anArm .stowed)
    let retract := asking 1 0x40 (anArm .sweeping)
    let yielding := asking 2 0x40 { anArm .sweeping with reverse := some 9700 }
    let sweep := asking 2 0x40 (anArm .sweeping)
    let clear := asking 2 0x40 { anArm .yielded with deflectOff := some 9000 }
    let wait := asking 2 0x40 { anArm .yielded with deflectOff := some 9001 }
    let fault := asking 2 0x40 (anArm .fault)
    (∀ s ∈ [deploy, idle, retract, yielding, sweep, clear, wait, fault], armDue s .a 10000 ∧ s.loader.station = .operating
        ∧ (s.arm .a).list = .none ∧ angleInRange s.inputs .a = true)
      ∧ new deploy = .deploying ∧ new idle = .stowed ∧ new retract = .retracting ∧ new sweep = .sweeping
      ∧ new clear = .resuming ∧ new wait = .yielded ∧ new fault = .fault := by
  unfold armDue
  decide +kernel

/-- For the same statement, lists that run: a WAIT_WATER met, a WAIT_BRUSH not yet, a list cut, and an angle out of range. -/
theorem witness_ArmStateFollowsItsTable_running :
    let asking (mode : Byte) (a : Arm) := { seeing 1 (aSlot .fresh 5 0x4407 [mode, 0, 0, 0, 0x40, 0, 0] (some 10090)) with
      armA := a }
    let new (s : State) := ((after (.armPeriodExpiry .a) s).armA.state, (after (.armPeriodExpiry .a) s).armA.remaining)
    let water := asking 2 (listing .deploying 1 .none)
    let brush := asking 2 { listing .deploying 2 .none with target := 350, engaged := true }
    let cut := asking 1 (listing .deploying 7 .none)
    let out := { asking 2 (listing .deploying 7 .none) with inputs := { inputs0 with
      analog := inputs0.analog.set 0 { anInput .angleA 981 with inRange := false } } }
    (∀ s ∈ [water, brush, cut, out], armDue s .a 10000 ∧ s.loader.station = .operating)
      ∧ new water = (.sweeping, 0) ∧ new brush = (.deploying, 2) ∧ new cut = (.retracting, 2) ∧ new out = (.fault, 0) := by
  unfold armDue
  decide +kernel

/-- A WAIT_TIME of 10 units one millisecond before its end and at it, with valve steps and an angle wait behind it, or as the last
steps of a list. -/
theorem witness_WaitTimeRunsTheListOn :
    let p := { leftArm with deploy := [.waitTime 10, .valve 2 true, .valve 3 false, .waitAngle false 700]
                            retract := [.waitTime 10, .valve 1 false] }
    let deploying (start : Nat) := { station with params := { image0 with armA := p }, armA := listing .deploying 4 (.time start) }
    let ending := { station with params := { image0 with armA := p }, armA := listing .retracting 2 (.time 9500) }
    let brushing := { station with armA := listing .deploying 4 (.time 9500) }
    let yielded := { station with
      params := { image0 with armA := { leftArm with yield := [.waitTime 10] } }, armA := listing .yielding 1 (.time 9500) }
    armPresent (deploying 9500) .a = true ∧ ((deploying 9500).arm .a).record = .time 9500
      ∧ stepsLeft (armParams (deploying 9500) .a) ((deploying 9500).arm .a)
        = .waitTime 10 :: ([((2 : Fin 4), true), (3, false)].map fun v => Step.valve v.1 v.2) ++ [.waitAngle false 700]
      ∧ angleValue (deploying 9500).inputs .a ≤ 700 ∧ 9500 + 10 * 50 ≤ (deploying 9500).micros / 1000
      ∧ (deploying 9501).micros / 1000 < 9501 + 10 * 50
      ∧ stepsLeft (armParams ending .a) (ending.arm .a)
        = .waitTime 10 :: ([((1 : Fin 4), false)].map fun v => Step.valve v.1 v.2) ++ []
      ∧ (ending.arm .a).list = .retract
      ∧ stepInProgress brushing .a = some (.waitTime 10) ∧ (brushing.arm .a).record = .time 9500
      ∧ (after (.waitTimeComplete .a) brushing).armA.engaged = true
      ∧ stepInProgress yielded .a = some (.waitTime 10) ∧ (after (.waitTimeComplete .a) yielded).armA.state = .yielded
      ∧ stepInProgress station .a = none
      ∧ ArmBounded (armParams ending .a) (ending.arm .a)
      ∧ ArmBounded (armParams (deploying 9500) .a) ((deploying 9500).arm .a) := by
  refine ⟨rfl, rfl, by decide +kernel, by decide +kernel, by decide +kernel, by decide +kernel, by decide +kernel, rfl,
    by decide +kernel, rfl, by decide +kernel, by decide +kernel, by decide +kernel, by decide +kernel, ?_, ?_⟩ <;> constructor <;> decide +kernel

/-- A deadline that has passed, where PACE can rise and where the last one was PROMPT, and one that has not. -/
theorem witness_StepDeadlineFailsTheArm :
    let s := { station with armA := listing .deploying 7 .none }
    let early := { s with micros := 9999999 }
    armPresent s .a = true ∧ (s.arm .a).deadline = some 10000 ∧ 10000 ≤ s.micros / 1000 ∧ (s.arm .a).state ≠ .stowed
      ∧ (s.arm .a).state ≠ .fault ∧ early.micros / 1000 < 10000 ∧ s.loader.station = .operating
      ∧ UrgencyRises (after (.stepDeadline .a) s) s.pub.lastUrgency
      ∧ ¬UrgencyRises (after (.stepDeadline .a) s) Urgency.prompt := by
  unfold UrgencyRises
  decide +kernel

/-- Measured 245 against targets that put it below 85 percent, between, and at 95 percent; a channel that is LOST; and a tank
claim that asks for more urgency than the last PACE. -/
theorem witness_LoadWindowMovesTheLoadFactor :
    let s (t : Nat) := { station with armA := { anArm .sweeping with load := 80, target := t } }
    let lost := { s 300 with inputs := { inputs0 with pulse := inputs0.pulse.set 2 ⟨.brushA, .lost, 0, none, none, 0⟩ } }
    let urgent := { s 300 with water := { station.water with claim := some ⟨0, .prompt, .tankEmpty⟩ } }
    armPresent (s 300) .a = true ∧ ((s 300).arm .a).state = .sweeping ∧ ((s 300).arm .a).loadDue = some 10000
      ∧ 10000 ≤ (s 300).micros / 1000 ∧ fnState (s 300) .brushA = some .tracking ∧ fnValue (s 300) .brushA = 245
      ∧ 245 * 100 < 300 * 85 ∧ (270 * 85 ≤ 245 * 100 ∧ 245 * 100 < 270 * 95) ∧ 257 * 95 ≤ 245 * 100
      ∧ fnState lost .brushA = some .lost ∧ isSafe (s 300) = false
      ∧ isSafe (causes ⟨false, true, false, false, false⟩ (s 300)) = true
      ∧ ¬UrgencyRises (after (.loadWindowExpiry .a) (s 300)) (s 300).pub.lastUrgency
      ∧ (urgent.arm .a).load ≠ (after (.loadWindowExpiry .a) urgent).armA.load
      ∧ UrgencyRises (after (.loadWindowExpiry .a) urgent) urgent.pub.lastUrgency := by
  unfold UrgencyRises
  decide +kernel

/-- SPRAYING and OFF, the operator heard and not, a valve tied to an arm that a slot gives, a tank that falls to the low mark
and one permille below, and one so low that the claim asks for more urgency than the last PACE. -/
theorem witness_WaterPeriodMetersTheFlow :
    let off := { station with water := { station.water with state := .off } }
    let tank (n : Nat) := { station with inputs := { inputs0 with analog := inputs0.analog.set 2 (anInput .tank n) } }
    let below (n : Nat) := (after .waterPeriodExpiry (tank n)).water.tankBelow
    waterDue station 10000 ∧ waterDue off 10000 ∧ (operatorRecord station).isSome = true ∧ (travelRecord station).isSome = true
      ∧ operatorRecord (seeing 1 ⟨none, false⟩) = none ∧ waterDue (seeing 1 ⟨none, false⟩) 10000
      ∧ (after .waterPeriodExpiry station).water.state = .spraying ∧ fnState station .flow = some .tracking
      ∧ (after .waterPeriodExpiry (seeing 1 ⟨none, false⟩)).water.state = .off
      ∧ image0.water.sprays[0].line = some 1 ∧ image0.water.sprays[0].tie = .arm 2 .a
      ∧ slotLabel station.picture 2 = some .armIn
      ∧ (station.picture.slots[2].record.map fun r => (r.age, headerSource r.header, headerTopic r.header)) = some (.fresh, 2, 5)
      ∧ 0 < slotWidth station.picture 2 ∧ (after .waterPeriodExpiry station).water.valves = #v[true, true, false, false]
      ∧ waterDue (tank 149) 10000 ∧ (tank 149).water.tankBelow = false ∧ below 149 = true ∧ below 150 = false
      ∧ waterDue (tank 39) 10000 ∧ UrgencyRises (after .waterPeriodExpiry (tank 39)) (tank 39).pub.lastUrgency
      ∧ ¬UrgencyRises (after .waterPeriodExpiry station) station.pub.lastUrgency := by
  unfold waterDue UrgencyRises
  decide +kernel

/-- The station with its water duty in a state since an instant, its flow and its tank as given. -/
def watering (st : WaterState) (start : Nat) (channel : PulseChannel) (tank : Nat) (s : State) : State :=
  { s with
    water := { station.water with state := st, dry := st == .dry, priming := if st = .priming then some start else none }
    inputs := { inputs0 with pulse := inputs0.pulse.set 4 channel, analog := inputs0.analog.set 2 (anInput .tank tank) } }

/-- Every row of the water duty's table: the tank dry and refilled, active and not, flow at half the setpoint and below, 5 s and
the prime time just passed and not yet, speed at the spray minimum and below. -/
theorem witness_WaterStateFollowsItsTable :
    let new (s : State) := (after .waterPeriodExpiry s).water.state
    let flow (n : Nat) := aChannel .flow n
    let lost : PulseChannel := ⟨.flow, .lost, 0, none, none, 0⟩
    let quiet := seeing 1 ⟨none, false⟩
    let slow := seeing 0 (aSlot .fresh 4 0x431C [0, 199, 0, 199, 0, 2, 0, 0, 0, 13, 5, 38] (some 10090))
    (∀ s ∈ [station, quiet, slow], waterDue s 10000 ∧ s.loader.station = .operating)
      ∧ new (watering .spraying 0 (flow 354) 39 station) = .dry ∧ new (watering .dry 0 (flow 0) 91 station) = .off
      ∧ new (watering .off 0 (flow 0) 600 station) = .priming ∧ new (watering .off 0 (flow 0) 600 slow) = .off
      ∧ new (watering .priming 9900 (flow 180) 600 station) = .spraying
      ∧ new (watering .priming 5001 (flow 179) 600 station) = .priming
      ∧ new (watering .priming 5000 (flow 179) 600 station) = .fault
      ∧ new (watering .priming 8000 lost 600 station) = .spraying ∧ new (watering .priming 8001 lost 600 station) = .priming
      ∧ new (watering .priming 9900 (flow 0) 600 quiet) = .off ∧ new (watering .spraying 0 (flow 354) 600 slow) = .idle
      ∧ new (watering .idle 0 (flow 0) 600 station) = .spraying ∧ new (watering .fault 0 (flow 0) 600 station) = .fault := by
  unfold waterDue
  decide +kernel

/-- The HALT button pressed and not, both mode switches on, and a reset hold of 2000 ms, in OPERATING and in JOINING. -/
theorem witness_ConsolePeriodFormsTheReadings :
    let switched (i : Fin 8) (x : SwitchInput) := { station with inputs := { inputs0 with switches := inputs0.switches.set i x } }
    let pressed := switched 4 (aSwitch .haltButton false)
    let both := switched 2 (aSwitch .mode1 true)
    let hold := { switched 5 (aSwitch .resetButton true) with console := { station.console with resetHold := some 8000 } }
    station.duties.console = true ∧ station.console.due = some 10000 ∧ 10000 ≤ station.micros / 1000 ∧ station.pub.list = []
      ∧ station.loader.station = .operating ∧ haltPressed station = false ∧ haltPressed pressed = true
      ∧ pressed.safe.causes.haltButton = false ∧ isSafe pressed = false
      ∧ isSafe (causes ⟨false, true, false, false, false⟩ pressed) = true
      ∧ (after .consolePeriodExpiry both).console.modeInvalid = true ∧ both.console.modeInvalid = false
      ∧ switchOn hold.inputs .resetButton = true ∧ (after .consolePeriodExpiry hold).console.resetHold = none
      ∧ (staged .joining station).loader.station = .joining := by decide +kernel

theorem witness_ConsoleTimersExpire :
    let s (start : Nat) := { station with
      console := { station.console with resetHold := some start, lampDeadline := some (start + 2000) }
      inputs := { inputs0 with switches := inputs0.switches.set 5 (aSwitch .resetButton true) } }
    let pedal := { s 8000 with console := { (s 8000).console with pedal := 1 } }
    (s 8000).console.resetHold = some 8000 ∧ switchOn (s 8000).inputs .resetButton = true
      ∧ 8000 + 2000 ≤ (s 8000).micros / 1000 ∧ (s 8000).console.pedal = 0 ∧ pedal.console.pedal ≠ 0
      ∧ (s 8000).loader.station = .operating ∧ placesTaken (s 8000) < 4 ∧ (s 8000).pub.list = []
      ∧ (staged .joining (s 8000)).loader.station = .joining
      ∧ (s 8001).micros / 1000 < 8001 + 2000 ∧ (s 8000).console.lampDeadline = some 10000
      ∧ (s 8001).console.lampDeadline = some 10001 := by decide +kernel

/-! ### A station that every property holds of, with a command waiting

It is what the statements about every step start from. -/

/-- The station with its drive just started, its arm A deploying, a PACE in hand, an ARM_A pending and a frame held. -/
def sound : State := { holding ⟨.others, 0x2225, 18, [1, 13, 5, 0, 6]⟩ (listed [anArmRecord] (sending .send aPace station)) with
  armA := { listing .deploying 7 .none with deadline := some 18000 }
  drive := { station.drive with fwdDuty := coilDuty image0.drive 0 }
  pending := [.transmitSuccess] }

theorem witness_TransmitListStaysOrdered : TransmitListOrdered sound ∧ ∃ t, step sound = .next t := by
  refine ⟨⟨by decide +kernel, ?_, by decide +kernel, ?_, by decide +kernel, by decide +kernel, by decide +kernel,
    fun h => absurd h (by decide)⟩, ⟨_, rfl⟩⟩
  · intro e he _
    obtain rfl := List.mem_singleton.1 he
    exact ⟨.armA, rfl, by decide⟩
  · intro e he _
    obtain rfl : aPace = e := by simpa [sound, holding, listed, sending] using he
    exact ⟨.pace, rfl, by decide⟩

theorem witness_LinkStaysConsistent : LinkConsistent sound ∧ ∃ t, step sound = .next t :=
  ⟨by constructor <;> decide +kernel, ⟨_, rfl⟩⟩

theorem sound_carried : CarriedDutiesOnly sound :=
  ⟨by decide +kernel, by decide +kernel, fun u => by cases u <;> decide +kernel, by decide +kernel⟩

theorem sound_arms : ∀ u, ArmBounded (armParams sound u) (sound.arm u) := by
  intro u; cases u <;> constructor <;> decide +kernel

theorem witness_ArmsStayBounded :
    CarriedDutiesOnly sound ∧ (∀ u, ArmBounded (armParams sound u) (sound.arm u)) ∧ ∃ t, step sound = .next t :=
  ⟨sound_carried, sound_arms, ⟨_, rfl⟩⟩

/-- A SAFE station, and one in JOINING, with a command waiting. -/
def stopped (x : StationState) (c : CauseSet) : State := { causes c (staged x station) with
  drive := State.resetDrive 1
  water := State.resetWater
  pending := [.drivePeriodExpiry] }

theorem witness_SafeAndJoiningStationsStandStill :
    ∀ s ∈ [stopped .operating ⟨false, true, false, false, false⟩, stopped .joining ⟨false, true, false, false, false⟩],
      CarriedDutiesOnly s ∧ (∀ u, ArmBounded (armParams s u) (s.arm u)) ∧ JoiningStill s ∧ SafeStill s ∧ isSafe s = true
        ∧ ∃ t, step s = .next t := by
  intro s hs
  rcases List.mem_cons.1 hs with rfl | hs
  · refine ⟨⟨by decide +kernel, by decide +kernel, fun u => by cases u <;> decide +kernel, by decide +kernel⟩, ?_, ?_, ?_,
      by decide +kernel, ⟨_, rfl⟩⟩
    · intro u; cases u <;> constructor <;> decide +kernel
    · exact ⟨by decide +kernel, by decide +kernel, fun _ u => by cases u <;> decide +kernel⟩
    · exact ⟨fun _ u => by cases u <;> decide +kernel, by decide +kernel, by decide +kernel⟩
  · obtain rfl := List.mem_singleton.1 hs
    refine ⟨⟨by decide +kernel, by decide +kernel, fun u => by cases u <;> decide +kernel, by decide +kernel⟩, ?_, ?_, ?_,
      by decide +kernel, ⟨_, rfl⟩⟩
    · intro u; cases u <;> constructor <;> decide +kernel
    · exact ⟨by decide +kernel, by decide +kernel, fun _ u => by cases u <;> decide +kernel⟩
    · exact ⟨fun _ u => by cases u <;> decide +kernel, by decide +kernel, by decide +kernel⟩

theorem witness_DriveStaysBounded :
    CarriedDutiesOnly sound ∧ DriveBounded sound.params.drive sound.drive ∧ ∃ t, step sound = .next t :=
  ⟨sound_carried, by constructor <;> decide +kernel, ⟨_, rfl⟩⟩

theorem witness_WaterStaysBounded :
    CarriedDutiesOnly sound ∧ JoiningStill sound ∧ WaterBounded sound.params.water sound.water ∧ ∃ t, step sound = .next t :=
  ⟨sound_carried, ⟨by decide +kernel, by decide +kernel, fun h => absurd h (by decide)⟩,
    by constructor <;> decide +kernel, ⟨_, rfl⟩⟩

/-- The station after a peer's HALT: SAFE with its five duties holding their claims. -/
def halted : State := after .eventHandlerTake (queued .haltIn 0x0152 [0, 4] station)

/-- For the last but one clause of CombinedClaimIsTheMostLimiting. -/
theorem witness_combinedClaim_while_safe : ClaimsHeld halted ∧ isSafe halted = true :=
  ⟨⟨by decide +kernel, fun u => by cases u <;> decide +kernel, by decide +kernel, by decide +kernel⟩, by decide +kernel⟩

theorem witness_ClaimsStayHeld : ClaimsHeld sound ∧ ∃ t, step sound = .next t :=
  ⟨⟨by decide +kernel, fun u => by cases u <;> decide +kernel, by decide +kernel, by decide +kernel⟩, ⟨_, rfl⟩⟩

theorem witness_CarriedFramesAndQueuesStayWhole :
    FramesWhole sound ∧ QueuesBounded sound ∧ CarriedDutiesOnly sound ∧ ∃ t, step sound = .next t :=
  ⟨by constructor <;> (try unfold declaresLength) <;> decide +kernel, by constructor <;> decide +kernel, sound_carried, ⟨_, rfl⟩⟩

end Sys2Proof.Tests
end

section
/-! PROOFS. The event queue's append (R21, R22), a store's completion (R11–R14) and a slot's deadline (R15): what each operation
of the Peer Picture answers in each of its cases, and the statements assembled from them. -/

namespace Sys2Proof.Machine

/-! ## The append to the event queue (R21, R22) -/

/-- The entry that leaves is the first that is not a HALT_IN, from wherever it stands (R22): the computing converse of
`displaceOldest_some`. -/
theorem displaceOldest_append_cons {before after : List EventEntry} {x : EventEntry}
    (halts : ∀ y ∈ before, y.label = .haltIn) (hx : x.label ≠ .haltIn) :
    displaceOldest (before ++ x :: after) = some (before ++ after) := by
  induction before with
  | nil => simp [displaceOldest, hx]
  | cons a before ih =>
    obtain ⟨ha, hbefore⟩ := List.forall_mem_cons.1 halts
    simp [displaceOldest, ha, ih hbefore]

section
variable {e : EventEntry} {p : Picture}

theorem appendEvent_of_room (room : p.events.length < 16) :
    appendEvent e p = { p with events := p.events ++ [e] } := if_pos room

theorem appendEvent_of_full (full : p.events.length = 16) (h : e.label ≠ .haltIn) :
    appendEvent e p = { p with eventOverrun := true } := by
  simp [appendEvent, full, h]

theorem appendEvent_haltIn_of_displaced {m : List EventEntry} (full : p.events.length = 16) (h : e.label = .haltIn)
    (displaced : displaceOldest p.events = some m) :
    appendEvent e p = { p with events := m ++ [e], eventOverrun := true } := by
  simp [appendEvent, full, h, displaced]

theorem appendEvent_haltIn_of_all_haltIn (full : p.events.length = 16) (h : e.label = .haltIn)
    (halts : ∀ y ∈ p.events, y.label = .haltIn) : appendEvent e p = { p with eventOverrun := true } := by
  simp [appendEvent, full, h, displaceOldest_none.2 halts]

end

/-- Settles O19: one equation of `appendEvent` for each of the four cases, the displacement by `displaceOldest_append_cons`. -/
theorem fullEventQueueKeepsHalts : Obligations.FullEventQueueKeepsHalts := by
  intro e p
  refine ⟨appendEvent_of_room, fun full => ⟨?displaces, appendEvent_haltIn_of_all_haltIn full, appendEvent_of_full full⟩⟩
  case displaces =>
    intro before x after he hevents hx halts
    exact appendEvent_haltIn_of_displaced full he (hevents ▸ displaceOldest_append_cons halts hx)

/-! ## A store's completion (R11–R14) -/

/-- The gap check finds a gap exactly at a held record of the same source whose number is not the one before (R13). -/
theorem gapFound_iff {old : Option SlotRecord} {f : HeldFrame} :
    gapFound old f = true ↔
      ∃ r, old = some r ∧ headerSource r.header = headerSource f.header ∧ f.seq ≠ r.seq + 1 := by
  cases old <;> simp [gapFound]

/-- A store never clears a gap flag, and latches it where the check finds a gap (R11, R13). -/
theorem storeSlot_gap_iff {now : Nat} {i : Fin 24} {r : Rule} {f : HeldFrame} {x : Slot} :
    (storeSlot now i r f x).gap = true ↔ x.gap = true
      ∨ ∃ old, x.record = some old ∧ headerSource old.header = headerSource f.header ∧ f.seq ≠ old.seq + 1 := by
  simp only [storeSlot, Bool.or_eq_true, gapFound_iff]

/-- A store's completion writes the slot that its rule names, and no other (R11). -/
theorem finishStore_of_slotNumber {now : Nat} {i : Fin 24} {f : HeldFrame} {p : Picture} {n : Fin 32}
    (names : p.table[i].slotNumber.toNat = n.val) :
    finishStore now i f p =
      { p with store := none, slots := p.slots.set n (storeSlot now i p.table[i] f p.slots[n]) } := by
  simp only [finishStore, names, Fin.is_lt, dite_true]
  rfl

theorem exec_storeComplete {s : State} : exec .storeComplete s = execStoreComplete s := rfl

/-- With a store in flight the completion ends it with the frame at the head, and that frame leaves (R3, R11). -/
theorem exec_storeComplete_of_store {s : State} {i : Fin 24} {f : HeldFrame} {rest : List HeldFrame}
    (hstore : s.picture.store = some i) (hhold : s.link.holding = f :: rest) :
    exec .storeComplete s = .next
      { s with link := { s.link with holding := rest }, picture := finishStore (ms s) i f s.picture } := by
  simp only [exec_storeComplete, execStoreComplete, hstore, hhold, List.head?_cons, dropHead, onLink, onPicture,
    State.withPicture_link, List.tail_cons]
  rfl

/-- Settles O21: the slot written is `storeSlot` of the old one, whose gap flag `storeSlot_gap_iff` gives. -/
theorem storeCompletionWritesTheSlot : Obligations.StoreCompletionWritesTheSlot := by
  intro s i f rest n hstore hhold names
  refine ⟨(storeSlot (ms s) i s.picture.table[i] f s.picture.slots[n]).gap, ?_, storeSlot_gap_iff⟩
  rw [exec_storeComplete_of_store hstore hhold, finishStore_of_slotNumber names]
  rfl

/-! ## A slot's deadline (R15) -/

@[simp] theorem due_none (now : Nat) : due now none = false := rfl

@[simp] theorem due_some (now t : Nat) : due now (some t) = decide (t ≤ now) := rfl

theorem ageRecord_of_fresh {table : Vector Rule 24} {r : SlotRecord} (h : r.age = .fresh) :
    ageRecord table r = { r with age := .aged, deadline := r.deadline.map (· + ruleAgeLimit table[r.rule]) } := by
  simp [ageRecord, h]

theorem ageRecord_of_aged {table : Vector Rule 24} {r : SlotRecord} (h : r.age = .aged) :
    ageRecord table r = { r with age := .lost, deadline := none } := by
  simp [ageRecord, h]

section
variable {s : State} {n : Fin 32}

theorem exec_slotDeadline : exec (.slotDeadline n) s = execSlotDeadline n s := rfl

/-- An EMPTY slot has no deadline (R15). -/
theorem exec_slotDeadline_of_empty (h : s.picture.slots[n].record = none) : exec (.slotDeadline n) s = .next s := by
  simp only [exec_slotDeadline, execSlotDeadline, h]

variable {r : SlotRecord}

theorem exec_slotDeadline_of_not_due (h : s.picture.slots[n].record = some r) (hdue : due (ms s) r.deadline = false) :
    exec (.slotDeadline n) s = .next s := by
  simp only [exec_slotDeadline, execSlotDeadline, h, hdue, Bool.false_eq_true, if_false]

/-- A deadline that has come ages the record of its slot and leaves the gap flag and every other slot (R15). -/
theorem exec_slotDeadline_of_due (h : s.picture.slots[n].record = some r) (hdue : due (ms s) r.deadline = true) :
    exec (.slotDeadline n) s = .next { s with picture := { s.picture with
      slots := s.picture.slots.set n ⟨some (ageRecord s.picture.table r), s.picture.slots[n].gap⟩ } } := by
  simp only [exec_slotDeadline, execSlotDeadline, h, hdue, if_true]
  rfl

end

/-- Settles O22: a deadline that has come gives `ageRecord` of the record, FRESH or AGED; an EMPTY slot, no deadline and one
still to come give the state as it was. -/
theorem slotDeadlineAgesTheSlot : Obligations.SlotDeadlineAgesTheSlot := by
  intro s n
  refine ⟨fun r deadline hrec hdl hle => ?due, exec_slotDeadline_of_empty, fun r hrec hdl => ?notDue⟩
  case due =>
    have hdue : due (ms s) r.deadline = true := by rw [hdl, due_some]; exact decide_eq_true hle
    rw [exec_slotDeadline_of_due hrec hdue]
    constructor
    · intro fresh
      rw [ageRecord_of_fresh fresh, hdl]
      rfl
    · intro aged
      rw [ageRecord_of_aged aged]
  case notDue =>
    refine exec_slotDeadline_of_not_due hrec ?_
    rcases hdl with hnone | ⟨deadline, hdl, hlt⟩
    · rw [hnone, due_none]
    · rw [hdl, due_some]; exact decide_eq_false (Nat.not_le.2 hlt)

end Sys2Proof.Machine
end

section
/-! PROOFS. Pace Arbitration (spec/04): the choice of R69 and of R78 is one choice, the first entry of least key;
what each PACE_IN slot gives a run (R74–R77); and the statements assembled from them. -/

namespace Sys2Proof.Machine

/-! ## The first least entry of a list -/

/-- The entry of a list whose key is strictly less than every key before it and at most every key after it. -/
def FirstLeast {α : Type} (key : α → Nat) (l : List α) (m : α) : Prop :=
  ∃ before after, l = before ++ m :: after ∧ (∀ e ∈ before, key m < key e) ∧ ∀ e ∈ after, key m ≤ key e

section
variable {α : Type} {key : α → Nat} {l : List α} {m : α}

theorem FirstLeast.le (h : FirstLeast key l m) {e : α} (he : e ∈ l) : key m ≤ key e := by
  obtain ⟨before, after, rfl, hbefore, hafter⟩ := h
  rcases List.mem_append.1 he with he | he
  · exact Nat.le_of_lt (hbefore e he)
  · rcases List.mem_cons.1 he with rfl | he
    · exact Nat.le_refl _
    · exact hafter e he

/-- A greater entry in front of the list is passed over. -/
theorem FirstLeast.cons (h : FirstLeast key l m) {x : α} (hx : key m < key x) : FirstLeast key (x :: l) m := by
  obtain ⟨before, after, rfl, hbefore, hafter⟩ := h
  exact ⟨x :: before, after, rfl, List.forall_mem_cons.2 ⟨hx, hbefore⟩, hafter⟩

/-- An entry no less than the first one changes nothing when it is put in behind it. -/
theorem FirstLeast.insert {x y : α} (h : FirstLeast key (x :: l) m) (hy : key x ≤ key y) :
    FirstLeast key (x :: y :: l) m := by
  obtain ⟨before, after, hl, hbefore, hafter⟩ := h
  cases before with
  | nil =>
    obtain ⟨rfl, rfl⟩ := List.cons.inj hl
    exact ⟨[], y :: l, rfl, hbefore, List.forall_mem_cons.2 ⟨hy, hafter⟩⟩
  | cons z before =>
    obtain ⟨rfl, rfl⟩ := List.cons.inj hl
    obtain ⟨hx, hbefore⟩ := List.forall_mem_cons.1 hbefore
    exact ⟨x :: y :: before, after, rfl,
      List.forall_mem_cons.2 ⟨hx, List.forall_mem_cons.2 ⟨Nat.lt_of_lt_of_le hx hy, hbefore⟩⟩, hafter⟩

/-- A scan that replaces its best entry by a strictly lesser one ends with the first least entry. -/
theorem firstLeast_foldl (x : α) (rest : List α) :
    FirstLeast key (x :: rest) (rest.foldl (fun best y => if key y < key best then y else best) x) := by
  induction rest generalizing x with
  | nil => exact ⟨[], [], rfl, nofun, nofun⟩
  | cons y rest ih =>
    rw [List.foldl_cons]
    by_cases hlt : key y < key x
    · rw [if_pos hlt]
      exact (ih y).cons (Nat.lt_of_le_of_lt ((ih y).le List.mem_cons_self) hlt)
    · rw [if_neg hlt]
      exact (ih x).insert (Nat.not_lt.1 hlt)

/-- Where no key is less than the first entry's, that entry is the one chosen. -/
theorem FirstLeast.eq_of_forall_le {x : α} (h : FirstLeast key (x :: l) m) (hall : ∀ e ∈ x :: l, key x ≤ key e) :
    m = x := by
  obtain ⟨before, after, hl, hbefore, -⟩ := h
  cases before with
  | nil => exact (List.cons.inj hl).1.symm
  | cons z before =>
    obtain ⟨rfl, rfl⟩ := List.cons.inj hl
    have hm : key x ≤ key m := hall m (by simp)
    exact absurd (hbefore x List.mem_cons_self) (Nat.not_lt.2 hm)

end

/-! ## The combined claim (R69) -/

theorem urgencyCode_le_two (u : Urgency) : urgencyCode u ≤ 2 := by cases u <;> decide

theorem higherUrgency_iff {a b : Urgency} : higherUrgency a b = true ↔ urgencyCode b < urgencyCode a := decide_eq_true_iff

/-- What R69 compares, as one number: the ceiling, and at the same ceiling the urgency, the higher first. -/
def claimKey (c : Claim) : Nat := c.ceiling * 3 + (2 - urgencyCode c.urgency)

theorem claimKey_lt_iff {a b : Claim} : claimKey a < claimKey b ↔
    a.ceiling < b.ceiling ∨ (a.ceiling = b.ceiling ∧ urgencyCode b.urgency < urgencyCode a.urgency) := by
  have ha := urgencyCode_le_two a.urgency
  have hb := urgencyCode_le_two b.urgency
  unfold claimKey
  omega

theorem claimKey_le_iff {a b : Claim} : claimKey a ≤ claimKey b ↔
    a.ceiling < b.ceiling ∨ (a.ceiling = b.ceiling ∧ urgencyCode b.urgency ≤ urgencyCode a.urgency) := by
  have ha := urgencyCode_le_two a.urgency
  have hb := urgencyCode_le_two b.urgency
  unfold claimKey
  omega

theorem limitsMore_iff {a b : Claim} : limitsMore a b = true ↔ claimKey a < claimKey b := by
  simp only [limitsMore, Bool.or_eq_true, Bool.and_eq_true, decide_eq_true_eq, beq_iff_eq, higherUrgency_iff,
    claimKey_lt_iff]

theorem combinedClaim_of_nil {s : State} (h : dutyClaims s = []) : combinedClaim s = none := by
  simp only [combinedClaim, h]

theorem combinedClaim_of_cons {s : State} {x : Duty × Claim} {rest : List (Duty × Claim)}
    (h : dutyClaims s = x :: rest) :
    ∃ m, combinedClaim s = some m ∧ FirstLeast (fun y => claimKey y.2) (x :: rest) m := by
  refine ⟨_, ?_, firstLeast_foldl x rest⟩
  simp only [combinedClaim, h, limitsMore_iff]

theorem combinedClaim_eq_none {s : State} : combinedClaim s = none ↔ dutyClaims s = [] := by
  refine ⟨fun hnone => ?_, combinedClaim_of_nil⟩
  cases hclaims : dutyClaims s with
  | nil => rfl
  | cons x rest =>
    obtain ⟨m, hsome, -⟩ := combinedClaim_of_cons hclaims
    rw [hnone] at hsome
    cases hsome

theorem firstLeast_of_combinedClaim {s : State} {m : Duty × Claim} (h : combinedClaim s = some m) :
    FirstLeast (fun y => claimKey y.2) (dutyClaims s) m := by
  cases hclaims : dutyClaims s with
  | nil => rw [combinedClaim_of_nil hclaims] at h; cases h
  | cons x rest =>
    obtain ⟨m', hsome, hleast⟩ := combinedClaim_of_cons hclaims
    obtain rfl : m' = m := Option.some.inj (hsome.symm.trans h)
    exact hleast

/-- A duty that is not carried puts no claim in the list, and one that is puts the claim it holds. -/
theorem claim_of_mem_ifPresent {present : Bool} {d : Duty} {held : Option Claim} {c : Claim} {x : Duty × Claim}
    (hx : x ∈ if present then (held.map fun c => (d, c)).toList else []) (hheld : present = true → held = some c) :
    x.2 = c := by
  cases present with
  | false => simp at hx
  | true =>
    obtain rfl : x = (d, c) := by simpa [hheld rfl] using hx
    rfl

/-- While SAFE every claim in the list is the replacement of R68. -/
theorem dutyClaims_while_safe {s : State} (held : ClaimsHeld s) (safe : isSafe s = true) :
    ∀ x ∈ dutyClaims s, x.2 = safeClaim := by
  intro x hx
  simp only [dutyClaims, List.mem_append] at hx
  rcases hx with (((hdrive | harmA) | harmB) | hwater) | hconsole
  · exact claim_of_mem_ifPresent hdrive fun carried => (held.drive carried).2 safe
  · exact claim_of_mem_ifPresent harmA fun carried => (held.arm .a carried).2 safe
  · exact claim_of_mem_ifPresent harmB fun carried => (held.arm .b carried).2 safe
  · exact claim_of_mem_ifPresent hwater fun carried => (held.water carried).2 safe
  · exact claim_of_mem_ifPresent hconsole fun carried => (held.console carried).2 safe

/-- Where all claims are equal, the first is the one chosen. -/
theorem combinedClaim_of_all_eq {s : State} {c : Claim} {x : Duty × Claim} {more : List (Duty × Claim)}
    (hclaims : dutyClaims s = x :: more) (hall : ∀ y ∈ dutyClaims s, y.2 = c) : combinedClaim s = some (x.1, c) := by
  obtain ⟨m, hchosen, hleast⟩ := combinedClaim_of_cons hclaims
  rw [hclaims] at hall
  obtain rfl : x.2 = c := hall x List.mem_cons_self
  obtain rfl : m = x := hleast.eq_of_forall_le fun y hy => Nat.le_of_eq (congrArg claimKey (hall y hy).symm)
  exact hchosen

/-- Settles O36: the combined claim is the first of least `claimKey`, and while SAFE the keys are all equal. -/
theorem combinedClaimIsTheMostLimiting : Obligations.CombinedClaimIsTheMostLimiting := by
  intro s
  change (_ ↔ dutyClaims s = []) ∧ (∀ d c, _ → ∃ before after, dutyClaims s = _ ∧ _)
    ∧ (_ → _ → ∀ x more, dutyClaims s = _ → _) ∧ _
  refine ⟨combinedClaim_eq_none, fun d c hchosen => ?limiting,
    fun held safe x more hclaims => combinedClaim_of_all_eq hclaims (dutyClaims_while_safe held safe),
    fun hduties => ?noDuty⟩
  case limiting =>
    obtain ⟨before, after, hclaims, hbefore, hafter⟩ := firstLeast_of_combinedClaim hchosen
    exact ⟨before, after, hclaims, fun x hx => claimKey_lt_iff.1 (hbefore x hx),
      fun x hx => claimKey_le_iff.1 (hafter x hx)⟩
  case noDuty =>
    have hclaims : dutyClaims s = [] := by rw [dutyClaims, hduties]; rfl
    exact ⟨combinedClaim_of_nil hclaims, congrArg (publishes · .pace) hduties⟩

/-! ## The choice of a run (R78) -/

theorem urgencyCode_inj {a b : Urgency} : urgencyCode a = urgencyCode b ↔ a = b := by
  cases a <;> cases b <;> decide

/-- What R78 compares, as one number: the ceiling, then the urgency, the higher first, then the source. -/
def paceKey (e : PaceEntry) : Nat := (e.ceiling * 3 + (2 - urgencyCode e.urgency)) * 16 + e.source.toNat

theorem chosenOver_iff {a b : PaceEntry} : ChosenOver a b ↔ paceKey a < paceKey b := by
  have ha := urgencyCode_le_two a.urgency
  have hb := urgencyCode_le_two b.urgency
  have hsa := a.source.isLt
  have hsb := b.source.isLt
  rw [ChosenOver, paceKey, paceKey, ← urgencyCode_inj]
  omega

theorem beats_iff {a b : PaceEntry} : beats a b = true ↔ paceKey a < paceKey b := by
  rw [← chosenOver_iff]
  simp only [beats, ChosenOver, Bool.or_eq_true, Bool.and_eq_true, decide_eq_true_eq, beq_iff_eq, higherUrgency_iff]

theorem chooseEntry_eq_foldl (best : PaceEntry) (rest : List PaceEntry) :
    chooseEntry best rest = rest.foldl (fun best y => if paceKey y < paceKey best then y else best) best := by
  induction rest generalizing best with
  | nil => rfl
  | cons y rest ih => simp only [chooseEntry, List.foldl_cons, ih, beats_iff]

theorem ownEntry_mem_paceEntries (s : State) : ownEntry s ∈ paceEntries s :=
  List.mem_append_left _ (List.mem_append_right _ List.mem_cons_self)

theorem paceRun_of_cons {s : State} {x : PaceEntry} {rest : List PaceEntry} (h : paceEntries s = x :: rest) :
    paceRun s = chooseEntry x rest := by
  simp only [paceRun, h]

/-- The drive's own entry is always formed, so that a run has an entry to choose. -/
theorem firstLeast_paceRun (s : State) : FirstLeast paceKey (paceEntries s) (paceRun s) := by
  cases hentries : paceEntries s with
  | nil => exact absurd (hentries ▸ ownEntry_mem_paceEntries s) List.not_mem_nil
  | cons x rest =>
    rw [paceRun_of_cons hentries, chooseEntry_eq_foldl]
    exact firstLeast_foldl x rest

theorem paceRun_ceiling_le {s : State} {e : PaceEntry} (he : e ∈ paceEntries s) : (paceRun s).ceiling ≤ e.ceiling := by
  have hnot : ¬ChosenOver e (paceRun s) := fun h => Nat.not_lt.2 ((firstLeast_paceRun s).le he) (chosenOver_iff.1 h)
  exact Nat.not_lt.1 fun hlt => hnot (.inl hlt)

/-! ## The entries of the station itself (R72, R73) -/

theorem modeCeiling_modeOfCode (p : DriveParams) (code : Nat) : modeCeiling p (modeOfCode code) =
    if code = 1 then p.transportMax else if code = 2 then p.sweepMax else 0 := by
  unfold modeOfCode
  split
  · rfl
  · rfl
  · rename_i notTransport notSweep
    rw [if_neg notTransport, if_neg notSweep, modeCeiling]

section
variable {s : State}

theorem modeEntry_of_heard {r : SlotRecord} (h : operatorRecord s = some r) :
    modeEntry s = [⟨modeCeiling s.params.drive (operatorMode r), .normal, s.loader.address, .mode⟩] := by
  simp only [modeEntry, h]

theorem modeEntry_of_unheard (h : operatorRecord s = none) : modeEntry s = [] := by simp only [modeEntry, h]

theorem operatorLostEntry_of_heard {r : SlotRecord} (h : operatorRecord s = some r) : operatorLostEntry s = [] := by
  simp only [operatorLostEntry, h]

theorem operatorLostEntry_of_unheard (h : operatorRecord s = none) :
    operatorLostEntry s = [⟨0, .stop, s.loader.address, .operatorLost⟩] := by
  simp only [operatorLostEntry, h]

theorem stationEntries_source : ∀ e ∈ modeEntry s ++ [ownEntry s] ++ operatorLostEntry s, e.source = s.loader.address := by
  cases h : operatorRecord s with
  | none => simp [modeEntry_of_unheard h, operatorLostEntry_of_unheard h, ownEntry]
  | some r => simp [modeEntry_of_heard h, operatorLostEntry_of_heard h, ownEntry]

end

/-- Settles O34: the result of a run is the first entry of least `paceKey`; its ceiling is at most that of the drive's own
entry. -/
theorem paceEngineChoosesTheLeastCeiling : Obligations.PaceEngineChoosesTheLeastCeiling := by
  intro s
  refine ⟨?choice, stationEntries_source, fun r h => ⟨operatorLostEntry_of_heard h, ?mode⟩,
    fun h => ⟨modeEntry_of_unheard h, operatorLostEntry_of_unheard h⟩, fun c h => by simp [ownEntry, h],
    fun _ _ hown => Nat.le_trans (paceRun_ceiling_le (ownEntry_mem_paceEntries s)) hown⟩
  case choice =>
    obtain ⟨before, after, hentries, hbefore, hafter⟩ := firstLeast_paceRun s
    refine ⟨before, after, ?_, fun e he => chosenOver_iff.2 (hbefore e he),
      fun e he chosen => Nat.not_lt.2 (hafter e he) (chosenOver_iff.1 chosen)⟩
    rw [← hentries, paceEntries, List.append_assoc (modeEntry s)]
    rfl
  case mode => rw [modeEntry_of_heard h, operatorMode, modeCeiling_modeOfCode]

/-! ## What a PACE_IN slot gives (R74–R77) -/

theorem mem_slotsOf {p : Picture} {l : Label} {n : Fin 32} : n ∈ slotsOf p l ↔ slotLabel p n = some l := by
  simp [slotsOf, slotNumbers]

theorem mem_paceEntries_of_slotEntry {s : State} {n : Fin 32} (hlabel : slotLabel s.picture n = some .paceIn)
    {e : PaceEntry} (he : e ∈ slotEntry s n) : e ∈ paceEntries s :=
  List.mem_append_right _ (List.mem_flatMap.2 ⟨n, mem_slotsOf.2 hlabel, he⟩)

section
variable {r : SlotRecord}

theorem readPace_of_pace (h : headerTopic r.header = topicNumber .pace) :
    readPace r = ⟨min 6000 (wordAt r.payload 1), urgencyOfCode (byteAt r.payload 3), headerSource r.header,
      reasonOfCode (byteAt r.payload 4)⟩ := if_pos h

theorem readPace_of_other (h : headerTopic r.header ≠ topicNumber .pace) :
    readPace r = ⟨0, .stop, headerSource r.header, .peerLost⟩ := if_neg h

end

theorem maxUrgency_prompt (u : Urgency) : maxUrgency u .prompt = if u = .stop then .stop else .prompt := by
  cases u <;> decide

section
variable {creep : Nat} {e : PaceEntry}

theorem agedPace_of_lt (h : creep < e.ceiling) :
    agedPace creep e = ⟨creep, if e.urgency = .stop then .stop else .prompt, e.source, .agedCreep⟩ := by
  rw [agedPace, if_pos h, maxUrgency_prompt]

theorem agedPace_of_le (h : e.ceiling ≤ creep) : agedPace creep e = e := if_neg (Nat.not_lt.2 h)

end

section
variable {s : State} {n : Fin 32}

section
variable {r : SlotRecord} (hrec : s.picture.slots[n].record = some r)
include hrec

theorem slotEntry_of_fresh (hage : r.age = .fresh) : slotEntry s n = [readPace r] := by
  simp only [slotEntry, hrec, hage]

theorem slotEntry_of_aged (hage : r.age = .aged) :
    slotEntry s n = [agedPace s.params.drive.agedCreep (readPace r)] := by
  simp only [slotEntry, hrec, hage]

theorem slotEntry_of_lost (hage : r.age = .lost) : slotEntry s n =
    if slotRequired s.picture n then [⟨0, .stop, headerSource r.header, .peerLost⟩] else [] := by
  simp only [slotEntry, hrec, hage]

end

/-- An EMPTY slot has its label, its required marking and its entry's source from its naming rule (R10, R77). -/
theorem slotEntry_of_empty {l : Label} (hlabel : slotLabel s.picture n = some l)
    (hrec : s.picture.slots[n].record = none) :
    ∃ i : Fin 24, namingRule s.picture.table n = some i ∧ slotEntry s n =
      if s.picture.table[i].required then [⟨0, .stop, s.picture.table[i].matchValue.extractLsb' 0 4, .peerLost⟩]
      else [] := by
  have hgov : governingRule s.picture n = namingRule s.picture.table n := by simp only [governingRule, hrec]
  obtain ⟨i, hi, -⟩ := Option.map_eq_some_iff.1 hlabel
  refine ⟨i, hgov ▸ hi, ?_⟩
  simp only [slotEntry, hrec, slotRequired, emptySource, hi]

end

/-- Settles O35: one equation of `slotEntry` for each age and for EMPTY, with those of `readPace` and `agedPace`; an entry that
a slot gives is one of the run's, so that the pace ceiling is at most its ceiling. -/
theorem paceSlotsBoundTheCeiling : Obligations.PaceSlotsBoundTheCeiling := by
  intro s n hlabel
  refine ⟨?bound, fun r hrec fresh => ?fresh, fun r hrec aged pace => ?agedPace, fun r hrec aged other => ?agedOther,
    fun r hrec lost => slotEntry_of_lost hrec lost, slotEntry_of_empty hlabel⟩
  case bound =>
    intro e he
    have hmem := mem_paceEntries_of_slotEntry hlabel he
    exact ⟨hmem, paceRun_ceiling_le hmem⟩
  case fresh =>
    rw [slotEntry_of_fresh hrec fresh]
    exact ⟨fun pace => by rw [readPace_of_pace pace], fun other => by rw [readPace_of_other other]⟩
  case agedPace =>
    rw [slotEntry_of_aged hrec aged, readPace_of_pace pace]
    exact ⟨fun cut => by rw [agedPace_of_lt cut], fun keep => by rw [agedPace_of_le keep]⟩
  case agedOther =>
    rw [slotEntry_of_aged hrec aged, readPace_of_other other, agedPace_of_le (Nat.zero_le _)]

end Sys2Proof.Machine
end

section
/-! PROOFS. A cyclic frame asked for (R48, R54, R55): what building it makes of the Publication Scheduler, that no event is
touched, and what the urgency check after a change of claims publishes (R70). -/

namespace Sys2Proof.Machine

/-! ## The bytes of PACE (R49, R208) -/

@[simp] theorem spelled_append (a b : List Nat) : spelled (a ++ b) = spelled a ++ spelled b := List.map_append

/-- The model's two-byte field is the statements' (R205). -/
theorem spelled_twoBytes (n : Nat) : spelled (twoBytes n) = be16 n := by
  have low : BitVec.ofNat 8 (n % 256) = BitVec.ofNat 8 n := BitVec.eq_of_toNat_eq (by simp)
  simp only [spelled, twoBytes, be16, byteOf, List.map_cons, List.map_nil, low]

theorem dutyCode_some (d : Duty) : dutyCode (some d) = [Duty.drive, .armA, .armB, .water, .console].idxOf d := by
  cases d <;> rfl

theorem urgencyCode_eq_idxOf (u : Urgency) : urgencyCode u = [Urgency.normal, .prompt, .stop].idxOf u := by cases u <;> rfl

theorem reasonCode_eq_reasonIn207 (r : Reason) : reasonCode r = reasonIn207 r := by cases r <;> rfl

theorem recordBytes_pace (s : State) : RecordBytes s (cyclicRecord s .pace) .pace := by
  intro duty c h
  simp only [cyclicRecord, paceRecord, h, dutyCode_some, urgencyCode_eq_idxOf, reasonCode_eq_reasonIn207, spelled_append,
    spelled_twoBytes]
  rfl

/-! ## Building a cyclic frame (R48, R54, R55) -/

section
variable {s : State} {topic : CyclicTopic}

/-- With none of the topic pending, the frame is a new entry (R54). -/
theorem publishCyclic_list_of_not_pending
    (h : ¬PendingCyclic (topicHeader (cyclicTopic topic) s.loader.address) s.pub.list) :
    (publishCyclic topic s).pub.list = insertNew (cyclicEntry s topic) s.pub.list
      ∧ (publishCyclic topic s).pub.late = s.pub.late := by
  have none_pending : s.pub.list.any (isPendingCyclic (cyclicEntry s topic).header) = false :=
    Bool.not_eq_true _ ▸ mt anyPending_iff.1 h
  simp [publishCyclic, none_pending, advanceSeq]

/-- With one of the topic pending, the frame takes its place, and is late (R54). -/
theorem publishCyclic_list_of_pending
    (h : PendingCyclic (topicHeader (cyclicTopic topic) s.loader.address) s.pub.list) :
    (publishCyclic topic s).pub.list = s.pub.list.map
        (fun x => if x.kind = .cyclic ∧ x.header = topicHeader (cyclicTopic topic) s.loader.address
          then cyclicEntry s topic else x)
      ∧ (publishCyclic topic s).pub.late = true := by
  have one_pending : s.pub.list.any (isPendingCyclic (cyclicEntry s topic).header) = true := anyPending_iff.2 h
  simp only [publishCyclic, one_pending, Bool.or_true, State.withPub_pub, if_true, and_true, isPendingCyclic,
    Bool.and_eq_true, beq_iff_eq]
  rfl

/-- A frame published with its timer run from an instant is what `BuiltCyclic` says, for every topic whose record is spelled as
`RecordBytes` has it. -/
theorem builtCyclic_of_recordBytes (start : Nat) (bytes : RecordBytes s (cyclicRecord s topic) topic) :
    BuiltCyclic s topic start (startPeriod topic start (publishCyclic topic s)).pub := by
  refine ⟨cyclicRecord s topic, bytes, fun fresh order => ?fresh, fun pending => ?pending⟩
  case fresh =>
    obtain ⟨hlist, hlate⟩ := publishCyclic_list_of_not_pending fresh
    refine ⟨insertNew (cyclicEntry s topic) s.pub.list, insertNew_placed order, ?_⟩
    rw [← hlist, ← hlate]
    rfl
  case pending =>
    obtain ⟨hlist, hlate⟩ := publishCyclic_list_of_pending pending
    have key : (startPeriod topic start (publishCyclic topic s)).pub = { s.pub with
        nextSeq := s.pub.nextSeq.set (topicIndex (cyclicTopic topic)) (s.pub.nextSeq[topicIndex (cyclicTopic topic)] + 1)
        timers := s.pub.timers.set (cyclicIndex topic) (some (start + s.params.periods[cyclicIndex topic] * 10))
        lastUrgency := if topic = CyclicTopic.pace then combinedUrgency s else s.pub.lastUrgency
        list := (publishCyclic topic s).pub.list
        late := (publishCyclic topic s).pub.late } := rfl
    rw [key, hlist, hlate]
    rfl

end

/-! ## Events are left alone -/

section
variable {p q r : Publication}

theorem SameEvents.refl (p : Publication) : SameEvents p p := ⟨rfl, rfl, ⟨rfl, rfl, rfl⟩, fun _ _ => rfl⟩

theorem SameEvents.trans (h : SameEvents p q) (k : SameEvents q r) : SameEvents p r := by
  obtain ⟨hdropped, hlast, hflag⟩ := h.dropped
  obtain ⟨kdropped, klast, kflag⟩ := k.dropped
  exact ⟨k.pending.trans h.pending, k.deferred.trans h.deferred,
    ⟨kdropped.trans hdropped, klast.trans hlast, kflag.trans hflag⟩,
    fun topic ht => (k.numbers topic ht).trans (h.numbers topic ht)⟩

end

/-- An entry that is not an event joins the list beside the events. -/
theorem insertNew_filter_isEvent {e : TxEntry} (he : isEvent e = false) (l : List TxEntry) :
    (insertNew e l).filter isEvent = l.filter isEvent := by
  induction l with
  | nil => simp [insertNew, he]
  | cons x rest ih =>
    unfold insertNew
    split
    · rw [List.filter_cons_of_neg (by simp [he])]
    · rw [List.filter_cons, List.filter_cons, ih]

/-- Replacing entries that are no events by one that is none leaves the events. -/
theorem map_replace_filter_isEvent {e : TxEntry} {replaced : TxEntry → Bool} (he : isEvent e = false)
    (hreplaced : ∀ x, replaced x = true → isEvent x = false) (l : List TxEntry) :
    (l.map fun x => if replaced x then e else x).filter isEvent = l.filter isEvent := by
  induction l with
  | nil => rfl
  | cons x rest ih =>
    rw [List.map_cons, List.filter_cons, List.filter_cons, ih]
    cases hx : replaced x with
    | false => rfl
    | true => simp [he, hreplaced x hx]

theorem isEvent_eq_false_of_isPendingCyclic {h : Word16} {x : TxEntry} (hx : isPendingCyclic h x = true) :
    isEvent x = false := by
  obtain ⟨hkind, -⟩ := Bool.and_eq_true_iff.1 hx
  rw [isEvent, eq_of_beq hkind]
  rfl

theorem topicIndex_cyclic_ne_event (t : CyclicTopic) :
    ∀ topic ∈ [Topic.halt, .notice, .clear, .report], topicIndex (cyclicTopic t) ≠ topicIndex topic := by
  cases t <;> decide

theorem publishCyclic_sameEvents (t : CyclicTopic) (s : State) : SameEvents s.pub (publishCyclic t s).pub where
  pending := by
    show (ite _ _ _ : List TxEntry).filter isEvent = s.pub.list.filter isEvent
    split
    · exact map_replace_filter_isEvent rfl (fun _ => isEvent_eq_false_of_isPendingCyclic) _
    · exact insertNew_filter_isEvent rfl _
  deferred := rfl
  dropped := ⟨rfl, rfl, rfl⟩
  numbers topic ht := by
    have hne : (topicIndex (cyclicTopic t)).val ≠ (topicIndex topic).val :=
      fun h => topicIndex_cyclic_ne_event t topic ht (Fin.ext h)
    rw [publishCyclic_seq]
    simp [advanceSeq, Vector.getElem_set_ne, hne]

theorem startPeriod_sameEvents (t : CyclicTopic) (start : Nat) (s : State) : SameEvents s.pub (startPeriod t start s).pub :=
  ⟨rfl, rfl, ⟨rfl, rfl, rfl⟩, fun _ _ => rfl⟩

theorem requestCyclic_sameEvents (t : CyclicTopic) (s : State) : SameEvents s.pub (requestCyclic t s).pub := by
  unfold requestCyclic
  split
  · exact (publishCyclic_sameEvents t s).trans (startPeriod_sameEvents ..)
  · exact .refl _

theorem checkUrgency_sameEvents (s : State) : SameEvents s.pub (checkUrgency s).pub := by
  rcases checkUrgency_cases s with h | h
  · rw [h]; exact .refl _
  · rw [h]; exact requestCyclic_sameEvents ..

/-! ## The urgency check (R55, R70) -/

theorem operating_iff {s : State} : operating s = true ↔ s.loader.station = .operating := by simp [operating]

theorem requestCyclic_of_published {t : CyclicTopic} {s : State} (o : s.loader.station = .operating)
    (p : publishes s.duties t = true) : requestCyclic t s = startPeriod t (ms s) (publishCyclic t s) := by
  simp [requestCyclic, operating_iff.2 o, p]

/-- A PACE is built exactly when the urgency rises where PACE can go out. -/
theorem checkUrgency_of_not_rises {s : State} (h : ¬UrgencyRises s s.pub.lastUrgency) : checkUrgency s = s := by
  unfold checkUrgency
  split
  · rename_i higher
    by_cases o : s.loader.station = .operating
    · have unpublished : publishes s.duties .pace = false :=
        Bool.not_eq_true _ ▸ fun p => h ⟨o, p, higherUrgency_iff.1 higher⟩
      exact requestCyclic_unpublished _ unpublished
    · exact requestCyclic_silent _ o
  · rfl

theorem checkUrgency_of_rises {s : State} (h : UrgencyRises s s.pub.lastUrgency) :
    checkUrgency s = startPeriod .pace (ms s) (publishCyclic .pace s) := by
  obtain ⟨o, p, higher⟩ := h
  rw [checkUrgency, if_pos (higherUrgency_iff.2 higher), requestCyclic_of_published o p]

theorem checkUrgency_claimPublished (s : State) : ClaimPublished s (checkUrgency s).pub :=
  ⟨fun rises => checkUrgency_of_rises rises ▸ builtCyclic_of_recordBytes _ (recordBytes_pace s),
    fun stays => by rw [checkUrgency_of_not_rises stays]⟩

end Sys2Proof.Machine
end

section
/-! PROOFS. The drive's control period (spec/05): what a period makes of the whole station, each step of the drive's work by an
equation of its own, and the two statements about a period assembled from them. -/

namespace Sys2Proof.Machine

/-! ## The inputs of a period (R82, R86) -/

theorem modeOfCode_eq_ite (code : Nat) :
    modeOfCode code = if code = 1 then .transport else if code = 2 then .sweep else .park := by
  unfold modeOfCode
  split
  · rfl
  · rfl
  · rename_i notTransport notSweep
    rw [if_neg notTransport, if_neg notSweep]

theorem directionOfCode_getD (code : Nat) (d : Direction) :
    (directionOfCode code).getD d = if code = 0 then .forward else if code = 1 then .reverse else d := by
  unfold directionOfCode
  split
  · rfl
  · rfl
  · rename_i notForward notReverse
    rw [if_neg notForward, if_neg notReverse, Option.getD_none]

section
variable {s : State}

theorem driveInputs_of_heard {r : SlotRecord} (h : operatorRecord s = some r) :
    (driveInputs s).mode
        = (if byteAt r.payload 0 = 1 then .transport else if byteAt r.payload 0 = 2 then .sweep else .park)
      ∧ (driveInputs s).request = (if byteAt r.payload 1 = 0 then .forward
          else if byteAt r.payload 1 = 1 then .reverse else s.drive.direction)
      ∧ (driveInputs s).pedal = min 1000 (wordAt r.payload 2) := by
  simp only [driveInputs, h, operatorMode, modeOfCode_eq_ite, directionOfCode_getD, and_self]

theorem driveInputs_of_unheard (h : operatorRecord s = none) :
    (driveInputs s).mode = .park ∧ (driveInputs s).request = s.drive.direction ∧ (driveInputs s).pedal = 0 := by
  simp only [driveInputs, h, and_self]

theorem driveInputs_wheelLost : (driveInputs s).wheelLost = true ↔ fnState s .wheel = some .lost := by
  simp [driveInputs]

/-- An engine channel that is not assigned counts as STOPPED (R86). -/
theorem driveInputs_engineStopped :
    (driveInputs s).engineStopped = false ↔ ∃ c, fnState s .engine = some c ∧ c ≠ .stopped := by
  cases h : fnState s .engine <;> simp [driveInputs, h]

theorem driveInputs_operating : (driveInputs s).operating = true ↔ s.loader.station = .operating := operating_iff

theorem recordHeard_iff {r : SlotRecord} : recordHeard r = true ↔ r.age ≠ .lost := by simp [recordHeard]

theorem peersHeard_iff {p : Picture} : peersHeard p = true ↔ RequiredHeard p := by
  simp only [peersHeard, RequiredHeard, List.all_eq_true, mem_slotsOf]
  refine forall_congr' fun n => imp_congr_right fun _ => ?_
  cases slotRequired p n <;> cases p.slots[n].record <;> simp [recordHeard_iff]

theorem driveInputs_peersHeard : (driveInputs s).peersHeard = true ↔ RequiredHeard s.picture := peersHeard_iff

end

theorem modeMax_eq_ite (p : DriveParams) (m : Mode) (d : Direction) :
    modeMax p m d = if m = .park then 0 else if d = .reverse then p.reverseMax
      else if m = .transport then p.transportMax else p.sweepMax := by
  cases m <;> cases d <;> rfl

/-! ## State transitions (R86–R89) -/

theorem stoodStill_iff {d : Drive} {expiry : Nat} :
    stoodStill d expiry = true ↔ ∃ start, d.standstill = some start ∧ start + 1000 ≤ expiry := by
  cases h : d.standstill <;> simp [stoodStill, h]

section
variable {p : DriveParams} {d : Drive} {i : DriveInputs} {vr ceiling expiry : Nat}

theorem nextDriveState_of_parked (h : d.state = .parked) : nextDriveState p d i vr ceiling expiry =
    if i.operating = true ∧ i.safe = false ∧ i.mode ≠ .park ∧ i.engineStopped = false ∧ p.engineMin ≤ i.n ∧ vr = 0
      ∧ i.peersHeard = true then .standing else .parked := by
  simp [nextDriveState, h, and_assoc]

theorem nextDriveState_of_standing (h : d.state = .standing) :
    (i.mode = .park → nextDriveState p d i vr ceiling expiry = .parked)
      ∧ (i.mode ≠ .park → i.request = d.direction → p.engineMin ≤ i.n → 0 < min vr ceiling →
        nextDriveState p d i vr ceiling expiry = .running)
      ∧ (i.mode ≠ .park → i.request ≠ d.direction ∨ i.n < p.engineMin ∨ min vr ceiling = 0 →
        nextDriveState p d i vr ceiling expiry = .standing) := by
  simp only [nextDriveState, h, beq_iff_eq]
  refine ⟨fun park => if_pos park, fun away same engine speed => ?leaves, fun away stays => ?stays⟩
  case leaves => rw [if_neg away, if_pos (by simp only [same, engine, speed, BEq.rfl, decide_true, Bool.and_self])]
  case stays =>
    rw [if_neg away, if_neg]
    rcases stays with turned | slow | still
    · simp [turned]
    · simp [Nat.not_le.2 slow]
    · simp only [still, Nat.lt_irrefl, decide_false, Bool.and_false, Bool.false_eq_true, not_false_eq_true]

theorem nextDriveState_of_running (h : d.state = .running) :
    (i.n < p.engineMin → nextDriveState p d i vr ceiling expiry = .halting)
      ∧ (p.engineMin ≤ i.n → (∃ start, d.standstill = some start ∧ start + 1000 ≤ expiry) →
        nextDriveState p d i vr ceiling expiry = .standing)
      ∧ (p.engineMin ≤ i.n → ¬(∃ start, d.standstill = some start ∧ start + 1000 ≤ expiry) →
        nextDriveState p d i vr ceiling expiry = .running) := by
  simp only [nextDriveState, h, stoodStill_iff]
  exact ⟨fun slow => if_pos slow, fun engine stood => (if_neg (Nat.not_lt.2 engine)).trans (if_pos stood),
    fun engine moving => (if_neg (Nat.not_lt.2 engine)).trans (if_neg moving)⟩

theorem nextDriveState_of_halting (h : d.state = .halting) :
    (d.v = 0 → i.vm < 50 → nextDriveState p d i vr ceiling expiry = .held)
      ∧ (d.v ≠ 0 ∨ 50 ≤ i.vm → nextDriveState p d i vr ceiling expiry = .halting) := by
  refine ⟨fun still slow => by simp [nextDriveState, h, still, slow], ?_⟩
  rintro (moving | measured)
  · simp [nextDriveState, h, moving]
  · simp [nextDriveState, h, Nat.not_lt.2 measured]

theorem nextDriveState_of_held (h : d.state = .held) :
    (i.safe = false → i.mode = .park → nextDriveState p d i vr ceiling expiry = .parked)
      ∧ (i.safe = false → i.mode ≠ .park → p.engineMin + 100 ≤ i.n → vr = 0 →
        nextDriveState p d i vr ceiling expiry = .standing)
      ∧ (i.safe = true ∨ (i.mode ≠ .park ∧ (i.n < p.engineMin + 100 ∨ vr ≠ 0)) →
        nextDriveState p d i vr ceiling expiry = .held) := by
  refine ⟨fun free park => by simp [nextDriveState, h, free, park],
    fun free away engine still => by simp [nextDriveState, h, free, away, engine, still], ?_⟩
  rintro (safe | ⟨away, slow | asked⟩)
  · simp [nextDriveState, h, safe]
  · simp [nextDriveState, h, away, Nat.not_le.2 slow]
  · simp [nextDriveState, h, away, asked]

end

/-! ## The arithmetic (R92–R100) -/

theorem driveMoves_iff {st : DriveState} : driveMoves st = true ↔ st = .running ∨ st = .halting := by simp [driveMoves]

theorem driveMoves_eq_decide (st : DriveState) : driveMoves st = decide (st = .running ∨ st = .halting) :=
  Bool.eq_iff_iff.2 (driveMoves_iff.trans decide_eq_true_iff.symm)

theorem clampNat_cast (hi : Nat) (x : Int) : (clampNat hi x : Int) = max 0 (min (hi : Int) x) := by
  unfold clampNat; omega

/-- At the target the ramp's fall is one of 0 (R94). -/
theorem ramp_eq_ite (v target up down : Nat) : ramp v target up down =
    if v < target then v + min up (target - v) else v - min down (v - target) := by
  unfold ramp
  split
  · rfl
  · split <;> omega

section
variable {p : DriveParams} {v vm n : Nat} {a1 : Int}

theorem displacement_of_lost :
    displacement p v vm n a1 true = (clampNat 1000 ((v * p.kff / max n p.engineMin : Nat) : Int), 0) := rfl

/-- With the wheel measured: the feedback is added, and its addition to A1 is undone where D is held against it (R96–R98). -/
theorem displacement_of_measured {e sum raw : Int} (he : e = (v : Int) - vm)
    (hsum : sum = max (-(p.iLimit * 1024) : Int) (min (p.iLimit * 1024 : Int) (a1 + e * p.ki)))
    (hraw : raw = ((v * p.kff / max n p.engineMin : Nat) : Int) + Int.tdiv (e * p.kp) 64 + Int.tdiv sum 1024) :
    displacement p v vm n a1 false
      = (clampNat 1000 raw, if (1000 < raw ∧ 0 < e) ∨ (raw < 0 ∧ e < 0) then a1 else sum) := by
  subst he hsum hraw
  rfl

end

/-! ## The drive's work, field by field (R81–R103) -/

section
variable {p : DriveParams} {i : DriveInputs} {pace : PaceResult} {vr : Nat} {d : Drive}

theorem driveArithmetic_of_rest (h : driveMoves d.state = false) :
    driveArithmetic p i pace vr d = { d with v := 0, a1 := 0, d := 0, fwdDuty := 0, revDuty := 0 } := by
  simp [driveArithmetic, h]

theorem driveArithmetic_of_moves (h : driveMoves d.state = true) {v : Nat} {r : Nat × Int}
    (hv : v = ramp d.v (driveTarget d.state (i.request != d.direction) vr pace.ceiling) (rampStep p.aUp)
      (rampStep (deceleration p d.state pace.urgency pace.ceiling d.v)))
    (hr : r = displacement p v i.vm i.n d.a1 i.wheelLost) :
    driveArithmetic p i pace vr d = { d with
      v := v
      a1 := r.2
      d := r.1
      fwdDuty := if d.direction = .forward then coilDuty p r.1 else 0
      revDuty := if d.direction = .reverse then coilDuty p r.1 else 0 } := by
  subst hr hv
  simp only [driveArithmetic, h, if_true]

/-- The arithmetic forms V, A1, D and the coil duties, and leaves the rest of the drive. -/
theorem driveArithmetic_frame : driveArithmetic p i pace vr d = { d with
    v := (driveArithmetic p i pace vr d).v
    a1 := (driveArithmetic p i pace vr d).a1
    d := (driveArithmetic p i pace vr d).d
    fwdDuty := (driveArithmetic p i pace vr d).fwdDuty
    revDuty := (driveArithmetic p i pace vr d).revDuty } := by
  cases h : driveMoves d.state with
  | false => simp only [driveArithmetic_of_rest h]
  | true => simp only [driveArithmetic_of_moves h rfl rfl]

/-- A drive is in motion only in the direction it had: the direction moves in STANDING alone (R91). -/
theorem nextDirection_of_moves {st : DriveState} (h : driveMoves st = true) : nextDirection d i st = d.direction :=
  if_neg (by rintro rfl; cases h)

end

/-- The drive after steps 3 to 6 of a period (R82–R91): inputs, mode, state and direction taken, the arithmetic still to come. -/
def driveChosen (p : DriveParams) (i : DriveInputs) (pace : PaceResult) (expiry : Nat) (d : Drive) : Drive :=
  let st := nextDriveState p d i (requestedSpeed p (nextMode p d i) d.direction i.pedal) pace.ceiling expiry
  { d with
    mode := nextMode p d i
    state := st
    direction := nextDirection d i st
    vm := i.vm
    n := i.n
    pace := pace }

theorem driveWork_eq (p : DriveParams) (i : DriveInputs) (pace : PaceResult) (now expiry : Nat) (d : Drive) :
    driveWork p i pace now expiry d = finishDrive now expiry d.v (driveArithmetic p i pace
      (requestedSpeed p (nextMode p d i) d.direction i.pedal) (driveChosen p i pace expiry d)) := rfl

/-! Each field of the drive `w` that a period leaves, its timer restarted, in terms of the drive `d` before the period and of the
fields of `w` formed before it. -/

section
variable {p : DriveParams} {i : DriveInputs} {pace : PaceResult} {now expiry : Nat} {next : Option Nat} {d w : Drive}
  (hw : w = { driveWork p i pace now expiry d with due := next })
include hw

/-- What the period takes, and what it leaves alone. -/
theorem worked_taken : w.mode = nextMode p d i ∧ w.vm = i.vm ∧ w.n = i.n ∧ w.pace = pace ∧ w.claim = d.claim := by
  rw [hw, driveWork_eq, driveArithmetic_frame]
  exact ⟨rfl, rfl, rfl, rfl, rfl⟩

theorem worked_state :
    w.state = nextDriveState p d i (requestedSpeed p w.mode d.direction i.pedal) w.pace.ceiling expiry := by
  rw [hw, driveWork_eq, driveArithmetic_frame]
  rfl

theorem worked_direction : w.direction = if w.state = .standing then i.request else d.direction := by
  rw [hw, driveWork_eq, driveArithmetic_frame]
  rfl

theorem worked_brakeOn : w.brakeOn = decide (w.state = .running ∨ w.state = .halting) := by
  rw [← driveMoves_eq_decide, hw]
  rfl

theorem worked_standstill : w.standstill =
    if w.state = .running ∧ w.v = 0 ∧ w.vm < 50 then some (d.standstill.getD expiry) else none := by
  rw [hw, driveWork_eq, driveArithmetic_frame]
  rfl

theorem driveChosen_state : (driveChosen p i pace expiry d).state = w.state := by
  rw [hw, driveWork_eq, driveArithmetic_frame]
  rfl

theorem worked_rest (h : driveMoves w.state = false) :
    w.v = 0 ∧ w.a1 = 0 ∧ w.d = 0 ∧ w.fwdDuty = 0 ∧ w.revDuty = 0 := by
  have hchosen : driveMoves (driveChosen p i pace expiry d).state = false := driveChosen_state hw ▸ h
  rw [hw, driveWork_eq, driveArithmetic_of_rest hchosen]
  exact ⟨rfl, rfl, rfl, rfl, rfl⟩

theorem worked_moving (h : driveMoves w.state = true) :
    w.v = ramp d.v (driveTarget w.state (i.request != d.direction) (requestedSpeed p w.mode d.direction i.pedal)
        w.pace.ceiling) (rampStep p.aUp) (rampStep (deceleration p w.state w.pace.urgency w.pace.ceiling d.v))
      ∧ (w.d, w.a1) = displacement p w.v w.vm w.n d.a1 i.wheelLost
      ∧ w.fwdDuty = (if w.direction = .forward then coilDuty p w.d else 0)
      ∧ w.revDuty = (if w.direction = .reverse then coilDuty p w.d else 0) := by
  have hchosen : driveMoves (driveChosen p i pace expiry d).state = true := driveChosen_state hw ▸ h
  have hdirection : (driveChosen p i pace expiry d).direction = d.direction := nextDirection_of_moves hchosen
  rw [hw, driveWork_eq, driveArithmetic_of_moves hchosen rfl rfl, hdirection]
  exact ⟨rfl, rfl, by rw [← hdirection]; rfl, by rw [← hdirection]; rfl⟩

/-- The ramp to the target of the period (R92–R94). -/
theorem worked_v {target rate : Nat} (h : driveMoves w.state = true)
    (htarget : target = if w.state = .running ∧ i.request = d.direction
      then min (requestedSpeed p w.mode d.direction i.pedal) w.pace.ceiling else 0)
    (hrate : rate = deceleration p w.state w.pace.urgency w.pace.ceiling d.v) :
    w.v = if d.v < target then d.v + min (max 1 (p.aUp / 100)) (target - d.v)
      else d.v - min (max 1 (rate / 100)) (d.v - target) := by
  have hdriven : driveTarget w.state (i.request != d.direction) (requestedSpeed p w.mode d.direction i.pedal)
      w.pace.ceiling = target := by simp [htarget, driveTarget]
  obtain ⟨hv, -⟩ := worked_moving hw h
  rw [hdriven, ← hrate, ramp_eq_ite] at hv
  exact hv

/-- D and A1 without a wheel to measure (R95, R98). -/
theorem worked_displacement_of_lost {feed : Int} (h : driveMoves w.state = true) (lost : i.wheelLost = true)
    (hfeed : feed = ((w.v * p.kff / max w.n p.engineMin : Nat) : Int)) :
    (w.d : Int) = min 1000 feed ∧ w.a1 = 0 := by
  obtain ⟨-, hd, -⟩ := worked_moving hw h
  rw [lost, displacement_of_lost, ← hfeed] at hd
  obtain ⟨hd, ha1⟩ := Prod.mk.inj hd
  have hnonneg : 0 ≤ feed := hfeed ▸ Int.natCast_nonneg _
  refine ⟨?_, ha1⟩
  rw [hd, clampNat_cast]
  omega

/-- D and A1 with the wheel measured (R95–R98). -/
theorem worked_displacement_of_measured {e sum raw : Int} (h : driveMoves w.state = true)
    (measured : i.wheelLost = false) (he : e = (w.v : Int) - w.vm)
    (hsum : sum = max (-(p.iLimit * 1024) : Int) (min (p.iLimit * 1024 : Int) (d.a1 + e * p.ki)))
    (hraw : raw = ((w.v * p.kff / max w.n p.engineMin : Nat) : Int) + Int.tdiv (e * p.kp) 64 + Int.tdiv sum 1024) :
    (w.d : Int) = max 0 (min 1000 raw)
      ∧ w.a1 = if (1000 < raw ∧ 0 < e) ∨ (raw < 0 ∧ e < 0) then d.a1 else sum := by
  obtain ⟨-, hd, -⟩ := worked_moving hw h
  rw [measured, displacement_of_measured he hsum hraw] at hd
  obtain ⟨hd, ha1⟩ := Prod.mk.inj hd
  exact ⟨by rw [hd, clampNat_cast]; rfl, ha1⟩

end

/-! ## The whole period (R66, R68, R81) -/

section
variable {s : State} {due : Nat}

/-- Neither the drive's inputs nor the pace engine read the scheduler, which the check of the claim has moved by then. -/
theorem drivePeriod_eq : drivePeriod due s = { s with
    drive := { driveWork s.params.drive (driveInputs s) (paceRun (setDriveClaim s)) s.micros due (setDriveClaim s).drive with
      due := some (due + 10) }
    pub := (checkUrgency (setDriveClaim s)).pub } := by
  rw [drivePeriod, reformDriveClaim, (checkUrgency_frame (setDriveClaim s)).eq]
  rfl

theorem drivePeriod_frame :
    drivePeriod due s = { s with drive := (drivePeriod due s).drive, pub := (drivePeriod due s).pub } := by
  rw [drivePeriod_eq]

theorem drivePeriod_drive : (drivePeriod due s).drive =
    { driveWork s.params.drive (driveInputs s) (paceRun (setDriveClaim s)) s.micros due (setDriveClaim s).drive with
      due := some (due + 10) } := by
  rw [drivePeriod_eq]

theorem drivePeriod_pub : (drivePeriod due s).pub = (checkUrgency (setDriveClaim s)).pub := by rw [drivePeriod_eq]

theorem drivePeriod_sameEvents : SameEvents s.pub (drivePeriod due s).pub := by
  rw [drivePeriod_pub]
  exact checkUrgency_sameEvents (setDriveClaim s)

/-- The claim of a period stands before its pace run, and nothing after it changes it (R66, R68). -/
theorem drivePeriod_claim : (drivePeriod due s).drive.claim = some (formClaim s (driveOwnClaim s)) := by
  obtain ⟨-, -, -, -, hclaim⟩ := worked_taken (drivePeriod_drive (s := s) (due := due))
  exact hclaim

theorem setDriveClaim_eq : setDriveClaim s =
    { s with drive := { s.drive with claim := (drivePeriod due s).drive.claim } } := by
  rw [drivePeriod_claim]
  rfl

theorem exec_drivePeriodExpiry_of_due (h : driveDue s due) : exec .drivePeriodExpiry s = .next (drivePeriod due s) := by
  obtain ⟨station, carried, hdue, hle⟩ := h
  have runs : dutiesRun s = true := by simpa [dutiesRun] using station
  have hms : due ≤ ms s := hle
  simp [exec, execDrivePeriodExpiry, hdue, runs, carried, hms]

end

/-- Settles O37: the period's claim, its publication and its pace run come from `drivePeriod_eq`, the numbers from the fields of
the worked drive. -/
theorem drivePeriodArithmetic : Obligations.DrivePeriodArithmetic := by
  intro s due hdue
  have hw := drivePeriod_drive (s := s) (due := due)
  obtain ⟨hmode, hvm, hn, hpace, -⟩ := worked_taken hw
  refine ⟨drivePeriod due s, exec_drivePeriodExpiry_of_due hdue, drivePeriod_frame, drivePeriod_sameEvents, ?published,
    congrArg Drive.due hw, drivePeriod_claim, ?pace, hvm, hn, ?_⟩
  case published =>
    rw [← setDriveClaim_eq, drivePeriod_pub]
    exact checkUrgency_claimPublished (setDriveClaim s)
  case pace => rw [hpace, ← setDriveClaim_eq]
  intro p i old new vr target rate error feed sum raw
  refine ⟨fun r => driveInputs_of_heard, driveInputs_of_unheard, modeMax_eq_ite p, hmode, (worked_direction hw :),
    worked_brakeOn hw, fun notRunning notHalting => ?rest, fun moving => ?moving⟩
  case rest => exact worked_rest hw (driveMoves_eq_decide _ ▸ decide_eq_false (not_or.2 ⟨notRunning, notHalting⟩))
  case moving =>
    have moves : driveMoves new.state = true := driveMoves_iff.2 moving
    obtain ⟨-, -, hfwd, hrev⟩ := worked_moving hw moves
    have hv := worked_v (target := target) (rate := rate) hw moves rfl rfl
    have hmeasured := worked_displacement_of_measured (e := error) (sum := sum) (raw := raw) hw moves
    refine ⟨hv, fun lost => worked_displacement_of_lost hw moves (driveInputs_wheelLost.2 lost) rfl,
      fun measured => hmeasured ?measured rfl rfl rfl, fun forward => ?forward, fun reverse => ?reverse⟩
    case measured => exact Bool.not_eq_true _ ▸ mt driveInputs_wheelLost.1 measured
    case forward => exact ⟨hfwd.trans (if_pos forward), hrev.trans (if_neg (by rw [forward]; nofun))⟩
    case reverse => exact ⟨hrev.trans (if_pos reverse), hfwd.trans (if_neg (by rw [reverse]; nofun))⟩

/-- Settles O38: the state of the worked drive is `nextDriveState` of the old one, which has one lemma for each state, and its
standstill timer is `worked_standstill`. -/
theorem driveStateFollowsItsTable : Obligations.DriveStateFollowsItsTable := by
  intro s due hdue
  have hw := drivePeriod_drive (s := s) (due := due)
  obtain ⟨-, hvm, hn, -, -⟩ := worked_taken hw
  have hstate := worked_state hw
  have hstandstill := worked_standstill hw
  refine ⟨drivePeriod due s, exec_drivePeriodExpiry_of_due hdue, drivePeriod_frame, drivePeriod_sameEvents, ?_⟩
  intro p i old new vr ready waited atRest
  simp only [new, hstate, hn, hvm]
  refine ⟨fun parked => ?parked, nextDriveState_of_standing, nextDriveState_of_running, nextDriveState_of_halting,
    nextDriveState_of_held (i := i), fun rest => hstandstill.trans (if_pos rest),
    fun moving => hstandstill.trans (if_neg moving)⟩
  case parked =>
    have hready : (i.operating = true ∧ i.safe = false ∧ i.mode ≠ .park ∧ i.engineStopped = false ∧ p.engineMin ≤ i.n
        ∧ vr = 0 ∧ i.peersHeard = true) ↔ ready := by
      rw [driveInputs_operating, driveInputs_engineStopped, driveInputs_peersHeard, ← hn]
      rfl
    exact ⟨fun h => (nextDriveState_of_parked parked).trans (if_pos (hready.2 h)),
      fun h => (nextDriveState_of_parked parked).trans (if_neg (mt hready.1 h))⟩

end Sys2Proof.Machine
end

section
/-! PROOFS. Requests of the Publication Scheduler from inside a command (R48, R54–R56, R58, R59): a cyclic frame announced,
what a request leaves of another topic, an event asked for, and PACE at a rise of urgency. -/

namespace Sys2Proof.Machine

/-! ## The bytes of WATER (R51, R168, R208) -/

theorem waterStateCode_eq_idxOf (st : WaterState) :
    waterStateCode st = [WaterState.off, .priming, .spraying, .idle, .dry, .fault].idxOf st := by cases st <;> rfl

theorem recordBytes_water (s : State) : RecordBytes s (cyclicRecord s .water) .water := by
  simp only [RecordBytes, cyclicRecord, waterRecordOut, waterStateCode_eq_idxOf, spelled_append, spelled_twoBytes]
  rfl

/-! ## Frames announced (R54, R55) -/

section
variable {s : State} {t v : CyclicTopic}

/-- A frame asked for and sent out is pending with its owner's record, and its timer runs (R54, R55). -/
theorem announced_requestCyclic (o : s.loader.station = .operating) (p : publishes s.duties t = true)
    (bytes : RecordBytes s (cyclicRecord s t) t) : Announced (requestCyclic t s) t := by
  have listed : cyclicEntry s t ∈ (publishCyclic t s).pub.list := by
    by_cases pending : PendingCyclic (topicHeader (cyclicTopic t) s.loader.address) s.pub.list
    · obtain ⟨hlist, -⟩ := publishCyclic_list_of_pending pending
      obtain ⟨x, hx, hown⟩ := pending
      rw [hlist]
      exact List.mem_map.2 ⟨x, hx, if_pos hown⟩
    · obtain ⟨hlist, -⟩ := publishCyclic_list_of_not_pending pending
      rw [hlist]
      exact mem_insertNew.2 (.inl rfl)
  rw [requestCyclic_of_published o p]
  refine ⟨?timer, cyclicEntry s t, listed, rfl, rfl, ?record, ?number⟩
  case timer => exact Vector.getElem_set_self ..
  case record => cases t <;> exact bytes
  case number => exact Vector.getElem_set_self ..

/-- An entry of another header stands in the list that a publication leaves. -/
theorem mem_publishCyclic_of_mem {x : TxEntry} (hx : x ∈ s.pub.list)
    (hne : x.header ≠ topicHeader (cyclicTopic t) s.loader.address) : x ∈ (publishCyclic t s).pub.list := by
  by_cases pending : PendingCyclic (topicHeader (cyclicTopic t) s.loader.address) s.pub.list
  · obtain ⟨hlist, -⟩ := publishCyclic_list_of_pending pending
    rw [hlist]
    exact List.mem_map.2 ⟨x, hx, if_neg fun hown => hne hown.2⟩
  · obtain ⟨hlist, -⟩ := publishCyclic_list_of_not_pending pending
    rw [hlist]
    exact mem_insertNew.2 (.inr hx)

/-! ## What a request leaves of another topic (R54–R56) -/

/-- A cyclic topic's next number and period timer are as they were: no frame of it has been built. -/
def CyclicKept (t : CyclicTopic) (p q : Publication) : Prop :=
  q.nextSeq[topicIndex (cyclicTopic t)] = p.nextSeq[topicIndex (cyclicTopic t)]
    ∧ q.timers[cyclicIndex t] = p.timers[cyclicIndex t]

theorem CyclicKept.refl (t : CyclicTopic) (p : Publication) : CyclicKept t p p := ⟨rfl, rfl⟩

theorem CyclicKept.trans {p q r : Publication} (h : CyclicKept t p q) (k : CyclicKept t q r) : CyclicKept t p r :=
  ⟨k.1.trans h.1, k.2.trans h.2⟩

theorem requestCyclic_cyclicKept (hne : v ≠ t) : CyclicKept t s.pub (requestCyclic v s).pub := by
  have hnumber : topicIndex (cyclicTopic v) ≠ topicIndex (cyclicTopic t) := by revert hne; cases v <;> cases t <;> decide
  have htimer : (cyclicIndex v).val ≠ (cyclicIndex t).val := by revert hne; cases v <;> cases t <;> decide
  refine ⟨requestCyclic_seq v s hnumber, ?_⟩
  unfold requestCyclic
  split
  · exact Vector.getElem_set_ne (cyclicIndex v).isLt (cyclicIndex t).isLt htimer
  · rfl

theorem requestCyclic_lastUrgency (hne : t ≠ .pace) : (requestCyclic t s).pub.lastUrgency = s.pub.lastUrgency := by
  unfold requestCyclic
  split
  · exact if_neg hne
  · rfl

/-- A frame announced stays announced when a frame of another topic is asked for. -/
theorem Announced.after_requestCyclic (h : Announced s t) (hne : v ≠ t) : Announced (requestCyclic v s) t := by
  obtain ⟨htimer, e, he, hkind, hheader, hrecord, hnumber⟩ := h
  obtain ⟨kept_number, kept_timer⟩ := requestCyclic_cyclicKept (s := s) hne
  have frame := requestCyclic_frame v s
  have listed : e ∈ (requestCyclic v s).pub.list := by
    unfold requestCyclic
    split
    · exact mem_publishCyclic_of_mem he fun h => hne (cyclicTopic_of_header (h.symm.trans hheader))
    · exact he
  refine ⟨?timer, e, listed, hkind, ?header, ?record, kept_number.trans hnumber⟩
  case timer => rw [kept_timer, htimer, frame.micros, frame.params]
  case header => rw [hheader, frame.loader]
  case record => rw [frame.eq]; cases t <;> exact hrecord

end

/-! ## Events asked for (R56, R58, R59) -/

section
variable {s : State} {topic : Topic} {payload : List Byte}

theorem requestEvent_timers : (requestEvent topic payload s).pub.timers = s.pub.timers
    ∧ (requestEvent topic payload s).pub.lastUrgency = s.pub.lastUrgency := by
  unfold requestEvent
  split
  · unfold enqueueEvent
    split <;> exact ⟨rfl, rfl⟩
  · unfold deferEvent
    split <;> exact ⟨rfl, rfl⟩
  · exact ⟨rfl, rfl⟩
  · exact ⟨rfl, rfl⟩

/-- A request for an event builds no cyclic frame. -/
theorem requestEvent_cyclicKept (event : topic ∈ [Topic.halt, .notice, .clear, .report]) (t : CyclicTopic) :
    CyclicKept t s.pub (requestEvent topic payload s).pub := by
  obtain ⟨htimers, -⟩ := requestEvent_timers (s := s) (topic := topic) (payload := payload)
  have hne : (topicIndex topic).val ≠ (topicIndex (cyclicTopic t)).val := fun h =>
    topicIndex_cyclic_ne_event t topic event (Fin.ext h.symm)
  have hnumber (h : s.loader.station = .operating ∨ s.loader.station = .joining) :
      CyclicKept t s.pub (requestEvent topic payload s).pub := by
    refine ⟨?_, congrArg (·[cyclicIndex t]) htimers⟩
    rw [requestEvent_seq topic payload h]
    exact Vector.getElem_set_ne (topicIndex topic).isLt (topicIndex (cyclicTopic t)).isLt hne
  cases h : s.loader.station with
  | operating => exact hnumber (.inl h)
  | joining => exact hnumber (.inr h)
  | configuring => rw [requestEvent_silent topic payload (.inl h)]; exact .refl ..
  | configFault => rw [requestEvent_silent topic payload (.inr h)]; exact .refl ..

/-- At full places an event that is not a HALT is itself discarded (R58). -/
theorem offerFull_of_not_halt {e : TxEntry} (h : isHalt e = false) (l : List TxEntry) :
    offerFull e l = (l, headerTopic e.header, false) := by
  unfold offerFull
  split
  · rw [h]; rfl
  · rfl

theorem eventEntry_not_halt (h : topic ≠ .halt) : isHalt (eventEntry s topic payload) = false := by
  simp only [isHalt, eventEntry, headerTopic_topicHeader]
  revert h
  cases topic <;> decide

/-- Full places discard a request that is not for a HALT, with flag, count and topic (R58, R59). -/
theorem requestEvent_of_full (h : topic ≠ .halt)
    (full : (s.loader.station = .operating ∧ 4 ≤ placesTaken s)
      ∨ (s.loader.station = .joining ∧ 4 ≤ s.pub.deferred.length)) :
    (requestEvent topic payload s).pub = countDropped (topicNumber topic) (advanceSeq s.pub topic) := by
  have offered (l : List TxEntry) : offerFull (eventEntry s topic payload) l = (l, topicNumber topic, false) := by
    rw [offerFull_of_not_halt (eventEntry_not_halt h)]
    exact congrArg (l, ·, false) (headerTopic_topicHeader ..)
  rcases full with ⟨o, full⟩ | ⟨j, full⟩
  · have taken : ¬placesTaken (s.withPub (advanceSeq s.pub topic)) < 4 := Nat.not_lt.2 full
    simp only [requestEvent, o, enqueueEvent, if_neg taken, offered]
    rfl
  · have taken : ¬(s.withPub (advanceSeq s.pub topic)).pub.deferred.length < 4 := Nat.not_lt.2 full
    simp only [requestEvent, j, deferEvent, if_neg taken, offered]
    rfl

/-- A place free among the deferred events takes a request at the tail (R59). -/
theorem requestEvent_deferred (j : s.loader.station = .joining) (free : s.pub.deferred.length < 4) :
    (requestEvent topic payload s).pub =
      { advanceSeq s.pub topic with deferred := s.pub.deferred ++ [eventEntry s topic payload] } := by
  have place : (s.withPub (advanceSeq s.pub topic)).pub.deferred.length < 4 := free
  simp only [requestEvent, j, deferEvent, if_pos place]
  rfl

/-- What a request for an event that is not a HALT makes of the scheduler (R48, R56, R58–R60). -/
theorem requestEvent_askedEvent (h : topic ≠ .halt) : AskedEvent s topic payload (requestEvent topic payload s).pub := by
  unfold AskedEvent
  cases station : s.loader.station with
  | operating =>
    refine fun order => ⟨fun free => ⟨_, insertNew_placed order, ?_⟩,
      fun full => ⟨fun _ _ _ _ halt => absurd halt h, fun _ => ?_⟩⟩
    · rw [requestEvent_free topic payload station free]
      rfl
    · exact requestEvent_of_full h (.inl ⟨station, full⟩)
  | joining =>
    exact ⟨requestEvent_deferred station,
      fun full => ⟨fun _ _ _ _ halt => absurd halt h, fun _ => requestEvent_of_full h (.inr ⟨station, full⟩)⟩⟩
  | configuring => exact congrArg State.pub (requestEvent_silent topic payload (.inl station))
  | configFault => exact congrArg State.pub (requestEvent_silent topic payload (.inr station))

end

/-! ## PACE at a rise of urgency (R55, R70) -/

section
variable {s c : State}

theorem urgencyRises_of_frame {t : State} {last : Urgency} (h : KeepsAllButPub c t) :
    UrgencyRises t last ↔ UrgencyRises c last := by
  rw [h.eq]
  rfl

/-- The urgency check publishes PACE for a state whose scheduler has built none since `s`. -/
theorem paceRises_checkUrgency (last : c.pub.lastUrgency = s.pub.lastUrgency) (kept : CyclicKept .pace s.pub c.pub) :
    PaceRises s (checkUrgency c) := by
  rw [PaceRises, urgencyRises_of_frame (checkUrgency_frame c), ← last]
  refine ⟨fun rises => ?rises, fun stays => ?stays⟩
  case rises =>
    obtain ⟨o, p, higher⟩ := rises
    have asked : checkUrgency c = requestCyclic .pace c := if_pos (higherUrgency_iff.2 higher)
    rw [asked]
    refine ⟨announced_requestCyclic o p (recordBytes_pace c), ?_⟩
    rw [requestCyclic_of_published o p]
    rfl
  case stays =>
    rw [checkUrgency_of_not_rises stays]
    exact ⟨rfl, kept⟩

theorem PaceRises.after_requestCyclic {t : CyclicTopic} (h : PaceRises s c) (hne : t ≠ .pace) :
    PaceRises s (requestCyclic t c) := by
  obtain ⟨rises, stays⟩ := h
  have frame := requestCyclic_frame t c
  have last : (requestCyclic t c).pub.lastUrgency = c.pub.lastUrgency := requestCyclic_lastUrgency hne
  have combined : combinedUrgency (requestCyclic t c) = combinedUrgency c := by rw [frame.eq]; rfl
  rw [PaceRises, urgencyRises_of_frame frame, last, combined]
  refine ⟨fun h => ?_, fun h => ?_⟩
  · obtain ⟨announced, carried⟩ := rises h
    exact ⟨announced.after_requestCyclic hne, carried⟩
  · obtain ⟨unchanged, kept⟩ := stays h
    exact ⟨unchanged, CyclicKept.trans (t := .pace) kept (requestCyclic_cyclicKept hne)⟩

end

end Sys2Proof.Machine
end

section
/-! PROOFS. The water duty's control period (spec/08): what a period makes of the whole station, each step of the water's work
by lemmas of its own, and the two statements about a period assembled from them. -/

namespace Sys2Proof.Machine

/-! ## The inputs of a period (R151–R155) -/

section
variable {s : State}

theorem waterRate_of_heard {r : SlotRecord} (h : operatorRecord s = some r) :
    waterRate s = min s.params.water.rateMax (wordAt r.payload 5) := by simp only [waterRate, h]

theorem waterRate_of_unheard (h : operatorRecord s = none) : waterRate s = 0 := by simp only [waterRate, h]

theorem waterSpeed_of_heard {r : SlotRecord} (h : travelRecord s = some r) :
    waterSpeed s = min 6000 (wordAt r.payload 0) := by simp only [waterSpeed, h, travelSpeed]

theorem waterSpeed_of_unheard (h : travelRecord s = none) : waterSpeed s = 0 := by simp only [waterSpeed, h]

theorem modeOfCode_eq_sweep {code : Nat} : modeOfCode code = .sweep ↔ code = 2 := by
  rw [modeOfCode_eq_ite]
  split
  · simp [*]
  · split <;> simp [*]

theorem sweepAsked_iff : sweepAsked s = true ↔ ∃ r, operatorRecord s = some r ∧ byteAt r.payload 0 = 2 := by
  unfold sweepAsked
  cases operatorRecord s <;> simp [modeOfCode_eq_sweep]

theorem waterActive_iff : waterActive s = true ↔ (∃ r, operatorRecord s = some r ∧ byteAt r.payload 0 = 2)
    ∧ 0 < waterRate s ∧ 0 < summedWidth s.picture ∧ travelRecord s ≠ none ∧ isSafe s = false := by
  simp [waterActive, sweepAsked_iff, Option.isSome_iff_ne_none, and_assoc]

end

section
variable {p : Picture} {n : Fin 32} {r : SlotRecord} (hrec : p.slots[n].record = some r)
include hrec

theorem slotWidth_of_record : slotWidth p n =
    if recordHeard r && (headerTopic r.header == 5 || headerTopic r.header == 6)
    then min 3000 (wordAt r.payload 4) else 0 := by
  rw [slotWidth, hrec]
  rfl

theorem slotWidth_of_arm (hage : r.age ≠ .lost) (htopic : headerTopic r.header = 5 ∨ headerTopic r.header = 6) :
    slotWidth p n = min 3000 (wordAt r.payload 4) := by
  simp [slotWidth_of_record hrec, recordHeard_iff.2 hage, htopic]

theorem slotWidth_of_other (h : r.age = .lost ∨ (headerTopic r.header ≠ 5 ∧ headerTopic r.header ≠ 6)) :
    slotWidth p n = 0 := by
  rcases h with lost | ⟨notA, notB⟩
  · simp [slotWidth_of_record hrec, recordHeard, lost]
  · simp [slotWidth_of_record hrec, notA, notB]

end

/-- A slot with nothing of an arm to read counts nothing (R152). -/
theorem slotWidth_eq_zero {p : Picture} {n : Fin 32}
    (h : ∀ r, p.slots[n].record = some r → r.age = .lost ∨ (headerTopic r.header ≠ 5 ∧ headerTopic r.header ≠ 6)) :
    slotWidth p n = 0 := by
  cases hrec : p.slots[n].record with
  | none => rw [slotWidth, hrec]
  | some r => exact slotWidth_of_other hrec (h r hrec)

theorem nextDry_eq_ite (mark tank : Nat) (dry : Bool) :
    nextDry mark tank dry = if dry = true then decide (tank ≤ mark + 50) else decide (tank < mark) := by
  simp only [nextDry, ← decide_not, Nat.not_lt]

theorem nextBelow_eq_ite (mark tank : Nat) (below : Bool) :
    nextBelow mark tank below = if below = true then decide (tank < mark + 50) else decide (tank < mark) := by
  simp only [nextBelow, ← decide_not, Nat.not_le]

/-! ## State transitions (R156–R160) -/

theorem primedFor_iff {w : Water} {expiry t : Nat} :
    primedFor w expiry t = true ↔ ∃ start, w.priming = some start ∧ start + t ≤ expiry := by
  cases h : w.priming <;> simp [primedFor, h]

theorem metered_iff {c : Option ChannelState} : (c.isSome && c != some .lost) = true ↔ ∃ x, c = some x ∧ x ≠ .lost := by
  cases c <;> simp

section
variable {p : WaterParams} {w : Water} {channel : Option ChannelState} {flow expiry : Nat}

theorem primingNext_of_inactive (h : w.active = false) : primingNext p w channel flow expiry = .off := by
  simp [primingNext, h]

/-! PRIMING with a flow to measure: at half the setpoint it sprays, and after 5 s below it, it fails (R157). -/

theorem primingNext_of_flowing (h : w.active = true) (meter : ∃ x, channel = some x ∧ x ≠ .lost) (half : w.q ≤ flow * 2) :
    primingNext p w channel flow expiry = .spraying := by
  simp [primingNext, h, metered_iff.2 meter, half]

theorem primingNext_of_flow_failed (h : w.active = true) (meter : ∃ x, channel = some x ∧ x ≠ .lost)
    (less : ¬w.q ≤ flow * 2) (waited : ∃ start, w.priming = some start ∧ start + 5000 ≤ expiry) :
    primingNext p w channel flow expiry = .fault := by
  simp [primingNext, h, metered_iff.2 meter, less, primedFor_iff.2 waited]

theorem primingNext_of_flow_awaited (h : w.active = true) (meter : ∃ x, channel = some x ∧ x ≠ .lost)
    (less : ¬w.q ≤ flow * 2) (waits : ¬∃ start, w.priming = some start ∧ start + 5000 ≤ expiry) : primingNext p w channel flow expiry = .priming := by
  simp [primingNext, h, metered_iff.2 meter, less, mt primedFor_iff.1 waits]

/-! PRIMING with no flow to measure: it sprays after the prime time (R157). -/

theorem primingNext_of_primed (h : w.active = true) (meter : ¬∃ x, channel = some x ∧ x ≠ .lost)
    (waited : ∃ start, w.priming = some start ∧ start + p.primeTime * 100 ≤ expiry) :
    primingNext p w channel flow expiry = .spraying := by
  have unmetered := Bool.not_eq_true _ ▸ mt metered_iff.1 meter
  simp only [primingNext, h, unmetered, primedFor_iff.2 waited]
  rfl

theorem primingNext_of_not_primed (h : w.active = true) (meter : ¬∃ x, channel = some x ∧ x ≠ .lost)
    (waits : ¬∃ start, w.priming = some start ∧ start + p.primeTime * 100 ≤ expiry) :
    primingNext p w channel flow expiry = .priming := by
  have unmetered := Bool.not_eq_true _ ▸ mt metered_iff.1 meter
  have unprimed := Bool.not_eq_true _ ▸ mt primedFor_iff.1 waits
  simp only [primingNext, h, unmetered, unprimed]
  rfl

theorem nextWater_of_dry (h : w.dry = true) : nextWater p w channel flow expiry = .dry := if_pos h

variable (wet : w.dry = false)
include wet

theorem nextWater_of_refilled (h : w.state = .dry) : nextWater p w channel flow expiry = .off := by
  simp [nextWater, wet, h]

theorem nextWater_of_off_starting (h : w.state = .off) (active : w.active = true) (fast : p.sprayMin ≤ w.speed) :
    nextWater p w channel flow expiry = .priming := by simp [nextWater, wet, h, active, fast]

theorem nextWater_of_off_waiting (h : w.state = .off) (waits : w.active = false ∨ w.speed < p.sprayMin) :
    nextWater p w channel flow expiry = .off := by
  rcases waits with inactive | slow
  · simp [nextWater, wet, h, inactive]
  · simp [nextWater, wet, h, Nat.not_le.2 slow]

theorem nextWater_of_priming (h : w.state = .priming) :
    nextWater p w channel flow expiry = primingNext p w channel flow expiry := by simp [nextWater, wet, h]

/-! SPRAYING and IDLE move by the same table: by the speed where active, and OFF otherwise (R158). -/

theorem nextWater_of_started_inactive (h : w.state = .spraying ∨ w.state = .idle) (inactive : w.active = false) :
    nextWater p w channel flow expiry = .off := by
  rcases h with h | h <;> simp [nextWater, wet, h, inactive]

theorem nextWater_of_started_slow (h : w.state = .spraying ∨ w.state = .idle) (active : w.active = true)
    (slow : w.speed < p.sprayMin) : nextWater p w channel flow expiry = .idle := by
  rcases h with h | h
  · simp [nextWater, wet, h, active, slow]
  · simp [nextWater, wet, h, active, Nat.not_le.2 slow]

theorem nextWater_of_started_fast (h : w.state = .spraying ∨ w.state = .idle) (active : w.active = true)
    (fast : p.sprayMin ≤ w.speed) : nextWater p w channel flow expiry = .spraying := by
  rcases h with h | h
  · simp [nextWater, wet, h, active, Nat.not_lt.2 fast]
  · simp [nextWater, wet, h, active, fast]

theorem nextWater_of_fault (h : w.state = .fault) : nextWater p w channel flow expiry = .fault := by
  simp [nextWater, wet, h]

end

/-! ## Setpoint, trim, pump and valves (R162–R166) -/

theorem waterRuns_iff {st : WaterState} : waterRuns st = true ↔ st = .priming ∨ st = .spraying := by simp [waterRuns]

/-- A search in number order finds the lowest number that meets the test. -/
theorem find?_finRange_eq_some_iff {n : Nat} {q : Fin n → Bool} {i : Fin n} :
    (List.finRange n).find? q = some i ↔ q i = true ∧ ∀ j, j < i → q j = false := by
  simp only [List.find?_eq_some_iff_getElem, List.getElem_finRange, List.length_finRange, Bool.not_eq_true']
  refine and_congr_right fun _ => ⟨?found, fun least => ⟨i.val, i.isLt, rfl, fun j hj => least ⟨j, _⟩ hj⟩⟩
  case found =>
    rintro ⟨k, hk, rfl, least⟩ j hj
    exact least j.val hj

/-- Whether a slot holds what a tie asks for: a record heard, from the tie's station and of the tied unit's topic (R166). -/
def slotTies (p : Picture) (station : BitVec 4) (u : ArmUnit) (n : Fin 32) : Bool :=
  match p.slots[n].record with
  | some r => recordHeard r && headerSource r.header == station
      && headerTopic r.header == topicNumber (cyclicTopic (armTopic u))
  | none => false

section
variable {p : Picture} {station : BitVec 4} {u : ArmUnit} {n : Fin 32}

theorem tiedSlot_eq : tiedSlot p station u = (slotsOf p .armIn).find? (slotTies p station u) := rfl

theorem slotTies_iff : slotTies p station u n = true ↔ ∃ r, p.slots[n].record = some r ∧ r.age ≠ .lost
    ∧ headerSource r.header = station ∧ headerTopic r.header = topicNumber (cyclicTopic (armTopic u)) := by
  unfold slotTies
  cases p.slots[n].record <;> simp [recordHeard_iff, and_assoc]

/-- The slot a tie finds is the lowest-numbered one labelled ARM_IN that holds what it asks for (R166). -/
theorem tiedSlot_eq_some_iff : tiedSlot p station u = some n ↔ TiedSlot p station u n := by
  rw [tiedSlot_eq, slotsOf, slotNumbers, List.find?_filter, find?_finRange_eq_some_iff]
  simp only [decide_eq_true_iff, decide_eq_false_iff_not, beq_iff_eq, slotTies_iff]
  cases u <;> rfl

end

theorem valveOpen_of_always {p : Picture} {v : SprayValve} (line : v.line ≠ none) (tie : v.tie = .always) :
    valveOpen p v = true := by
  simp [valveOpen, Option.isSome_iff_ne_none, line, tie]

theorem valveOpen_of_arm {p : Picture} {v : SprayValve} {station : BitVec 4} {u : ArmUnit} (line : v.line ≠ none)
    (tie : v.tie = .arm station u) :
    valveOpen p v = true ↔ ∃ n, TiedSlot p station u n ∧ 0 < slotWidth p n := by
  simp only [← tiedSlot_eq_some_iff, valveOpen, tie]
  cases tiedSlot p station u <;> simp [Option.isSome_iff_ne_none, line]

theorem nextTrim_of_no_flow {p : WaterParams} {channel : Option ChannelState} {q flow : Nat} {trim : Int}
    (h : channel = none ∨ channel = some .lost) : nextTrim p channel q flow trim = 0 := by
  rcases h with rfl | rfl <;> rfl

theorem nextTrim_of_waiting {p : WaterParams} {channel : Option ChannelState} {q flow : Nat} {trim : Int}
    (h : channel = some .oneMissing ∨ channel = some .stopped) : nextTrim p channel q flow trim = trim := by
  rcases h with rfl | rfl <;> rfl

/-- Steps 4 to 6 form setpoint, trim, saturated, pump and valves, and leave the rest of the water duty. -/
theorem formWater_frame {p : WaterParams} {pic : Picture} {channel : Option ChannelState} {flow now : Nat} {w : Water} :
    formWater p pic channel flow now w = { w with
      q := (formWater p pic channel flow now w).q
      saturated := (formWater p pic channel flow now w).saturated
      trim := (formWater p pic channel flow now w).trim
      pump := (formWater p pic channel flow now w).pump
      valves := (formWater p pic channel flow now w).valves
      expectSince := (formWater p pic channel flow now w).expectSince } := by
  unfold formWater
  split <;> rfl

/-- A move sets the state and the priming start, brings what a state without flow brings to rest, and leaves the readings. -/
theorem moveWater_frame {now expiry : Nat} {st : WaterState} {w : Water} : moveWater now expiry st w = { w with
    state := st
    priming := if st = w.state then w.priming else if st = .priming then some expiry else none
    q := (moveWater now expiry st w).q
    saturated := (moveWater now expiry st w).saturated
    trim := (moveWater now expiry st w).trim
    pump := (moveWater now expiry st w).pump
    valves := (moveWater now expiry st w).valves
    expectSince := (moveWater now expiry st w).expectSince } := by
  unfold moveWater enterWater
  split
  · rename_i same
    rw [same]
  · split
    · split <;> rfl
    · split <;> rfl

theorem waterOwnClaim_eq_ite (p : WaterParams) (w : Water) : waterOwnClaim p w =
    if w.active = true ∧ w.dry = false then ⟨min 6000 (p.qMax * 1000000 / (w.rate * w.width)), .normal, .waterCapacity⟩
    else if w.dry = true ∧ p.dryForbidden = true then ⟨0, .prompt, .tankEmpty⟩ else ⟨6000, .normal, .none⟩ := by
  simp [waterOwnClaim, freeClaim]

/-! ## The steps of a period (R150) -/

/-- The water duty after steps 1 and 2: the readings taken and the tank judged, its timer restarted. -/
def waterRead (s : State) (due : Nat) : Water :=
  { updateTank s.params.water (readWater s s.water) with due := some (due + 20) }

/-- The state that step 3 leaves. -/
def waterNext (s : State) (due : Nat) : WaterState :=
  if operating s then nextWater s.params.water (waterRead s due) (fnState s .flow) (fnValue s .flow) due else s.water.state

/-- The water duty after step 3. -/
def waterMoved (s : State) (due : Nat) : Water := moveWater s.micros due (waterNext s due) (waterRead s due)

/-- The water duty after steps 4 to 6. -/
def waterFormed (s : State) (due : Nat) : Water :=
  formWater s.params.water s.picture (fnState s .flow) (fnValue s .flow) s.micros (waterMoved s due)

/-- The water duty that a period leaves: formed, with its claim. -/
def waterWorked (s : State) (due : Nat) : Water :=
  { waterFormed s due with claim := some (formClaim s (waterOwnClaim s.params.water (waterFormed s due))) }

/-- The station once the NOTICE of a fall below the low mark has been asked for. -/
def waterNoticed (s : State) (due : Nat) : State := noticeTank s.water.tankBelow (s.withWater (waterFormed s due))

/-- The station once the claim has been checked. -/
def waterChecked (s : State) (due : Nat) : State := checkUrgency (setWaterClaim (waterNoticed s due))

section
variable {s : State} {due : Nat}

theorem waterNext_of_joining (h : s.loader.station = .joining) : waterNext s due = s.water.state := by
  simp [waterNext, operating, h]

theorem waterNext_of_operating (h : s.loader.station = .operating) : waterNext s due =
    nextWater s.params.water (waterRead s due) (fnState s .flow) (fnValue s .flow) due := if_pos (operating_iff.2 h)

theorem waterMoved_of_same (h : waterNext s due = s.water.state) : waterMoved s due = waterRead s due := if_pos h

/-! Each field of the water duty `w` that a period leaves, in terms of the station `s` before the period and of the fields of
`w` formed before it. -/

section
variable {w : Water} (hw : w = waterWorked s due)
include hw

theorem worked_readings : w.due = some (due + 20) ∧ w.rate = waterRate s ∧ w.width = summedWidth s.picture
    ∧ w.speed = waterSpeed s ∧ w.active = waterActive s ∧ w.tank = tankValue s.inputs := by
  rw [hw, waterWorked, waterFormed, formWater_frame, waterMoved, moveWater_frame]
  exact ⟨rfl, rfl, rfl, rfl, rfl, rfl⟩

theorem worked_tank : w.dry = nextDry s.params.water.emptyMark w.tank s.water.dry
    ∧ w.tankBelow = nextBelow s.params.water.lowMark w.tank s.water.tankBelow := by
  rw [hw, waterWorked, waterFormed, formWater_frame, waterMoved, moveWater_frame]
  exact ⟨rfl, rfl⟩

theorem worked_waterState : w.state = waterNext s due
    ∧ w.priming = if waterNext s due = s.water.state then s.water.priming
        else if waterNext s due = .priming then some due else none := by
  rw [hw, waterWorked, waterFormed, formWater_frame, waterMoved, moveWater_frame]
  exact ⟨rfl, rfl⟩

/-- What a period's transition reads is what the period leaves. -/
theorem waterRead_of_worked : (waterRead s due).dry = w.dry ∧ (waterRead s due).active = w.active
    ∧ (waterRead s due).speed = w.speed := by
  rw [hw, waterWorked, waterFormed, formWater_frame, waterMoved, moveWater_frame]
  exact ⟨rfl, rfl, rfl⟩

theorem worked_of_priming_entered (h : s.water.state ≠ .priming) (next : waterNext s due = .priming) :
    w.state = .priming ∧ w.priming = some due := by
  obtain ⟨hstate, hpriming⟩ := worked_waterState hw
  rw [hstate, hpriming, next, if_neg h.symm]
  exact ⟨rfl, rfl⟩

theorem worked_of_priming_kept (h : s.water.state = .priming) (next : waterNext s due = .priming) :
    w.state = .priming ∧ w.priming = s.water.priming := by
  obtain ⟨hstate, hpriming⟩ := worked_waterState hw
  rw [hstate, hpriming, next, if_pos h.symm]
  exact ⟨rfl, rfl⟩

theorem worked_of_priming_left {st : WaterState} (h : s.water.state = .priming) (next : waterNext s due = st)
    (left : st ≠ .priming) : w.state = st ∧ w.priming = none := by
  obtain ⟨hstate, hpriming⟩ := worked_waterState hw
  rw [hstate, hpriming, next, h, if_neg left, if_neg left]
  exact ⟨rfl, rfl⟩

theorem worked_running (runs : waterRuns w.state = true) : w.q = min s.params.water.qMax (roundedFlow w)
    ∧ w.saturated = decide (s.params.water.qMax < roundedFlow w)
    ∧ w.pump = clampNat 1000 (((w.q * s.params.water.kw / 1000 : Nat) : Int) + w.trim)
    ∧ w.trim = nextTrim s.params.water (fnState s .flow) w.q (fnValue s .flow) (waterMoved s due).trim
    ∧ w.valves = Vector.ofFn fun i => valveOpen s.picture s.params.water.sprays[i] := by
  have moved : waterRuns (waterMoved s due).state = true := by
    obtain ⟨hstate, -⟩ := worked_waterState hw
    rw [waterMoved, moveWater_frame]
    exact hstate ▸ runs
  have formed : waterFormed s due = _ := if_pos moved
  rw [hw, waterWorked, formed]
  exact ⟨rfl, rfl, rfl, rfl, rfl⟩

theorem worked_resting (rests : waterRuns w.state = false) : w.q = 0 ∧ w.saturated = false ∧ w.trim = 0 ∧ w.pump = 0
    ∧ w.valves = Vector.replicate 4 false := by
  have moved : ¬waterRuns (waterMoved s due).state = true := by
    obtain ⟨hstate, -⟩ := worked_waterState hw
    rw [waterMoved, moveWater_frame]
    exact Bool.not_eq_true _ ▸ hstate ▸ rests
  have formed : waterFormed s due = _ := if_neg moved
  rw [hw, waterWorked, formed]
  exact ⟨rfl, rfl, rfl, rfl, rfl⟩

theorem worked_waterClaim : w.claim = some (formClaim s (waterOwnClaim s.params.water w)) := by
  rw [hw]
  rfl

end

/-! ## The whole period (R55, R68, R150, R155) -/

theorem waterPeriod_eq : waterPeriod due s = if waterNext s due = s.water.state then waterChecked s due
    else requestCyclic .water (waterChecked s due) := rfl

theorem waterNoticed_frame : KeepsAllButPub (s.withWater (waterFormed s due)) (waterNoticed s due) := noticeTank_frame ..

/-- The claim is formed of the state before the NOTICE as after it, for the NOTICE moves the scheduler alone. -/
theorem setWaterClaim_waterNoticed :
    setWaterClaim (waterNoticed s due) = (s.withWater (waterWorked s due)).withPub (waterNoticed s due).pub := by
  rw [waterNoticed_frame.eq]
  rfl

theorem waterChecked_frame : KeepsAllButPub (s.withWater (waterWorked s due)) (waterChecked s due) := by
  have claimed := KeepsAllButPub.withPub (s.withWater (waterWorked s due)) (waterNoticed s due).pub
  rw [← setWaterClaim_waterNoticed] at claimed
  exact claimed.trans (checkUrgency_frame _)

theorem waterPeriod_keeps : KeepsAllButPub (s.withWater (waterWorked s due)) (waterPeriod due s) := by
  rw [waterPeriod_eq]
  split
  · exact waterChecked_frame
  · exact waterChecked_frame.trans (requestCyclic_frame ..)

theorem waterPeriod_water : (waterPeriod due s).water = waterWorked s due := waterPeriod_keeps.water

theorem waterPeriod_frame :
    waterPeriod due s = { s with water := (waterPeriod due s).water, pub := (waterPeriod due s).pub } := by
  rw [waterPeriod_water]
  exact waterPeriod_keeps.eq

theorem exec_waterPeriodExpiry_of_due (h : waterDue s due) : exec .waterPeriodExpiry s = .next (waterPeriod due s) := by
  obtain ⟨station, carried, hdue, hle⟩ := h
  have runs : dutiesRun s = true := by simpa [dutiesRun] using station
  have hms : due ≤ ms s := hle
  simp [exec, execWaterPeriodExpiry, hdue, runs, carried, hms]

/-! ### What a period publishes (R52, R55, R155) -/

theorem waterNoticed_of_fall (above : s.water.tankBelow = false) (below : (waterWorked s due).tankBelow = true) :
    (waterNoticed s due).pub = (requestEvent .notice (spelled [0, (waterWorked s due).tank / 4, 0])
      (s.withWater (waterFormed s due))).pub := by
  have fall : ((waterFormed s due).tankBelow && !s.water.tankBelow) = true :=
    Bool.and_eq_true_iff.2 ⟨below, by rw [above]; rfl⟩
  exact congrArg State.pub (if_pos fall)

theorem waterNoticed_of_no_fall (h : s.water.tankBelow = true ∨ (waterWorked s due).tankBelow = false) :
    waterNoticed s due = s.withWater (waterFormed s due) := by
  refine if_neg fun fall => ?_
  obtain ⟨below, above⟩ := Bool.and_eq_true_iff.1 fall
  rcases h with already | stays
  · rw [already] at above
    cases above
  · exact Bool.false_ne_true (stays.symm.trans below)

/-- The NOTICE of the tank builds no cyclic frame. -/
theorem waterNoticed_cyclicKept (t : CyclicTopic) : CyclicKept t s.pub (waterNoticed s due).pub
    ∧ (waterNoticed s due).pub.lastUrgency = s.pub.lastUrgency := by
  unfold waterNoticed noticeTank
  split
  · obtain ⟨-, last⟩ := requestEvent_timers (s := s.withWater (waterFormed s due)) (topic := .notice)
      (payload := noticeRecord .tankLow ((waterFormed s due).tank / 4) 0)
    exact ⟨requestEvent_cyclicKept (by decide) t, last⟩
  · exact ⟨.refl .., rfl⟩

theorem waterPeriod_sameEvents : SameEvents (waterNoticed s due).pub (waterPeriod due s).pub := by
  have checked : SameEvents (waterNoticed s due).pub (waterChecked s due).pub :=
    checkUrgency_sameEvents (setWaterClaim (waterNoticed s due))
  rw [waterPeriod_eq]
  split
  · exact checked
  · exact checked.trans (requestCyclic_sameEvents ..)

theorem waterPeriod_paceRises : PaceRises s (waterPeriod due s) := by
  obtain ⟨kept, last⟩ := waterNoticed_cyclicKept (s := s) (due := due) .pace
  have checked : PaceRises s (waterChecked s due) := paceRises_checkUrgency last kept
  rw [waterPeriod_eq]
  split
  · exact checked
  · exact checked.after_requestCyclic (by decide)

theorem waterPeriod_cyclicKept_of_same (h : waterNext s due = s.water.state) :
    CyclicKept .water s.pub (waterPeriod due s).pub := by
  obtain ⟨kept, -⟩ := waterNoticed_cyclicKept (s := s) (due := due) .water
  rw [waterPeriod_eq, if_pos h]
  rcases checkUrgency_cases (setWaterClaim (waterNoticed s due)) with same | asked
  · rw [waterChecked, same]
    exact kept
  · rw [waterChecked, asked]
    exact kept.trans (requestCyclic_cyclicKept (s := setWaterClaim (waterNoticed s due)) (by decide))

/-- A change of state is possible in OPERATING alone, where WATER goes out at once (R55, R150). -/
theorem waterPeriod_announced (h : waterDue s due) (moves : waterNext s due ≠ s.water.state) :
    Announced (waterPeriod due s) .water := by
  obtain ⟨station, carried, -, -⟩ := h
  have o : s.loader.station = .operating := station.resolve_left (mt waterNext_of_joining moves)
  have checked := waterChecked_frame (s := s) (due := due)
  rw [waterPeriod_eq, if_neg moves]
  refine announced_requestCyclic ?_ ?_ (recordBytes_water _)
  · rw [checked.loader]
    exact o
  · rw [checked.duties]
    exact carried

end

/-- Settles O49: the readings, the numbers and the claim are fields of the worked water duty, and what goes out is what the
NOTICE, the check of the claim and a change of state ask for. -/
theorem waterPeriodMetersTheFlow : Obligations.WaterPeriodMetersTheFlow := by
  intro s due hdue
  have hw := waterPeriod_water (s := s) (due := due)
  obtain ⟨hdueNext, hrate, hwidth, hspeed, hactive, htank⟩ := worked_readings hw
  obtain ⟨hdry, hbelow⟩ := worked_tank hw
  obtain ⟨hstate, -⟩ := worked_waterState hw
  refine ⟨waterPeriod due s, exec_waterPeriodExpiry_of_due hdue, waterPeriod_frame, ?_⟩
  intro p old w flow rounded
  refine ⟨hdueNext, fun r heard => hrate.trans (waterRate_of_heard heard),
    fun lost => hrate.trans (waterRate_of_unheard lost),
    fun r heard => hspeed.trans (waterSpeed_of_heard heard),
    fun lost => hspeed.trans (waterSpeed_of_unheard lost), hwidth,
    fun n => ⟨fun r hrec => slotWidth_of_arm hrec, slotWidth_eq_zero⟩, ?active, htank, hdry.trans (nextDry_eq_ite ..),
    hbelow.trans (nextBelow_eq_ite ..), fun running => ?running, fun notPriming notSpraying => ?resting, ?claim,
    waterPeriod_paceRises, fun above below => ?notice, fun noFall => ?silent⟩
  case active =>
    rw [hactive, hrate, hwidth]
    exact waterActive_iff
  case running =>
    have runs : waterRuns w.state = true := waterRuns_iff.2 running
    obtain ⟨hq, hsaturated, hpump, htrim, hvalves⟩ := worked_running hw runs
    refine ⟨hq, hsaturated, ?pump, fun lost => htrim.trans (nextTrim_of_no_flow lost), fun same tracking => ?tracking,
      fun same waiting => ?waiting, fun i line => ?valve⟩
    case pump => exact (congrArg Nat.cast hpump).trans (clampNat_cast ..)
    case tracking =>
      rw [htrim, waterMoved_of_same (hstate.symm.trans same), tracking]
      rfl
    case waiting =>
      rw [htrim, waterMoved_of_same (hstate.symm.trans same), nextTrim_of_waiting waiting]
      rfl
    case valve =>
      have hvalve : w.valves[i] = valveOpen s.picture p.sprays[i] := by
        simp only [w, hvalves, Fin.getElem_fin, Vector.getElem_ofFn]
        rfl
      rw [hvalve]
      cases tie : (p.sprays[i]).tie with
      | always => exact iff_of_true (valveOpen_of_always line tie) trivial
      | arm station u => exact valveOpen_of_arm line tie
  case resting =>
    have rests : waterRuns w.state = false :=
      Bool.not_eq_true _ ▸ mt waterRuns_iff.1 (not_or.2 ⟨notPriming, notSpraying⟩)
    obtain ⟨hq, hsaturated, htrim, hpump, hvalves⟩ := worked_resting hw rests
    exact ⟨hq, hsaturated, htrim, hpump, fun i => by simp [w, hvalves]⟩
  case claim =>
    rw [worked_waterClaim hw, waterOwnClaim_eq_ite]
    rfl
  case notice =>
    refine ⟨(waterNoticed s due).pub, ?_, waterPeriod_sameEvents⟩
    rw [waterNoticed_of_fall above (hw ▸ below), ← hw]
    exact requestEvent_askedEvent (s := s.withWater (waterFormed s due)) (by decide)
  case silent =>
    have same := waterPeriod_sameEvents (s := s) (due := due)
    rw [waterNoticed_of_no_fall (hw ▸ noFall)] at same
    exact same

/-- Settles O50: the state of the worked water duty is `waterNext`, whose table has one lemma for each row, and its priming
start follows that state. -/
theorem waterStateFollowsItsTable : Obligations.WaterStateFollowsItsTable := by
  intro s due hdue
  have hw := waterPeriod_water (s := s) (due := due)
  obtain ⟨hdry, hactive, hspeed⟩ := waterRead_of_worked hw
  obtain ⟨hstate, -⟩ := worked_waterState hw
  refine ⟨waterPeriod due s, exec_waterPeriodExpiry_of_due hdue, ?_⟩
  intro p old w meter half primed
  refine ⟨fun moves => waterPeriod_announced hdue (hstate ▸ moves),
    fun same => waterPeriod_cyclicKept_of_same (hstate.symm.trans same),
    fun joining => hstate.trans (waterNext_of_joining joining), fun operates => ?operating⟩
  have next := waterNext_of_operating (due := due) operates
  simp only [w, ← hdry, ← hactive, ← hspeed]
  refine ⟨fun dry => ?dry, fun wet => ?wet⟩
  case dry =>
    have toDry := next.trans (nextWater_of_dry dry)
    refine ⟨hstate.trans toDry, fun primes => ?_⟩
    obtain ⟨-, dropped⟩ := worked_of_priming_left hw primes toDry (by decide)
    exact dropped
  case wet =>
    have stays {st : WaterState} (h : nextWater p (waterRead s due) (fnState s .flow) (fnValue s .flow) due = st) :
        w.state = st := hstate.trans (next.trans h)
    have nextPriming (primes : old.state = .priming) := next.trans (nextWater_of_priming wet primes)
    have left {st : WaterState} (primes : old.state = .priming)
        (h : primingNext p (waterRead s due) (fnState s .flow) (fnValue s .flow) due = st) (away : st ≠ .priming) :=
      worked_of_priming_left hw primes ((nextPriming primes).trans h) away
    have kept (primes : old.state = .priming)
        (h : primingNext p (waterRead s due) (fnState s .flow) (fnValue s .flow) due = .priming) :=
      worked_of_priming_kept hw primes ((nextPriming primes).trans h)
    refine ⟨fun refilled => stays (nextWater_of_refilled wet refilled), fun off active fast => ?enters,
      fun off waits => stays (nextWater_of_off_waiting wet off waits),
      fun primes inactive => left primes (primingNext_of_inactive inactive) (by decide),
      fun primes active meter flows => left primes (primingNext_of_flowing active meter flows) (by decide),
      fun primes active meter less waited => left primes (primingNext_of_flow_failed active meter less waited) (by decide),
      fun primes active meter less waits => kept primes (primingNext_of_flow_awaited active meter less waits),
      fun primes active unmetered waited => left primes (primingNext_of_primed active unmetered waited) (by decide),
      fun primes active unmetered waits => kept primes (primingNext_of_not_primed active unmetered waits),
      fun started inactive => stays (nextWater_of_started_inactive wet started inactive),
      fun started active slow => stays (nextWater_of_started_slow wet started active slow),
      fun started active fast => stays (nextWater_of_started_fast wet started active fast),
      fun fault => stays (nextWater_of_fault wet fault)⟩
    case enters =>
      have notPriming : old.state ≠ .priming := by rw [show old.state = .off from off]; decide
      exact worked_of_priming_entered hw notPriming (next.trans (nextWater_of_off_starting wet off active fast))

end Sys2Proof.Machine
end

section
/-! PROOFS. What a step can do, said once: every command but the two of reset is a sequence of parts, each with the guard under
which it is taken, so that a property which every part keeps is kept by every step. -/

namespace Sys2Proof.Machine

/-! ## The parts of a command -/

/-- The loader, the link and the scheduler at the entry to CONFIG_FAULT, before Safe Control takes the cause (R60, R200). -/
def failImage (code : CheckCode) (s : State) : State :=
  ((s.withLoader { s.loader with station := .configFault, validity := .failed, failedCheck := some code }).withLink
    (openLink (some .k250) s.link)).withPub (faultPub (ms s) s.pub)

theorem enterConfigFault_eq (code : CheckCode) (s : State) :
    enterConfigFault code s = reportCause .configBad (failImage code s) := rfl

/-- The station OPERATING with its deferred events enqueued, before the first cyclic frames (R59, R203). -/
def openList (s : State) : State :=
  enqueueAllDeferred (s.withLoader { s.loader with station := .operating, joinDue := none })

theorem enterOperating_eq (s : State) : enterOperating s = cyclicTopics.foldl firstFrame (openList s) := rfl

/-- The claims formed anew on an empty cause set (R189). -/
def clearCauses (s : State) : State := setAllClaims (s.withSafe { s.safe with causes := noCauses })

/-- A FAULT water duty moved to OFF with its claim formed, before anything is published (R160, R167). -/
def stopWater (s : State) : State := setWaterClaim (s.withWater (enterWater s.micros .off s.water))

/-- The parts of start-up (spec/11). -/
inductive StartPart (s : State) : State → Prop where
  | readAgain (h : s.loader.station = .configuring) : StartPart s (startRead s)
  | imageFailed (code : CheckCode) (h : s.loader.station = .configuring) : StartPart s (failImage code s)
  | imageAccepted (m : Image) (first : Vector Permille 4) (h : s.loader.station = .configuring) :
      StartPart s (enterJoining m first s)
  | opened (h : s.loader.station = .joining) : StartPart s (openList s)

/-- The parts of the Publication Scheduler alone (spec/03). -/
inductive PubPart (s : State) : State → Prop where
  | published (t : CyclicTopic) (start : Nat) (o : s.loader.station = .operating) (p : publishes s.duties t = true) :
      PubPart s (startPeriod t start (publishCyclic t s))
  | asked (t : Topic) (payload : List Byte) (h : payload.length = topicLength t) : PubPart s (requestEvent t payload s)
  | configBadTimer (next : Option Nat) : PubPart s (s.withPub { s.pub with configBadDue := next })
  | configBad (h : s.loader.station = .configFault) : PubPart s (requestConfigBad s)
  | dropped : PubPart s (reportDropped s)
  | owed (b : Bool) : PubPart s (s.withPub { s.pub with noticeDue := b })

/-- The parts of the Link Controller, with what they bring to the scheduler and to Safe Control (spec/02). -/
inductive LinkPart (s : State) : State → Prop where
  | idle (h : s.loader.station ≠ .configuring) : LinkPart s (onLink seeIdle s)
  | framing : LinkPart s (onLink frameError s)
  | received (f : CollectedFrame) (h : declaresLength f.header f.payload) : LinkPart s (onLink (receiveFrame f) s)
  | contends (h : mayContend s = true) : LinkPart s (beginContest s)
  | begins (h : s.link.receiver = .waiting) : LinkPart s (onLink (fun l => { l with receiver := .inFrame }) s)
  | won (h : s.link.transmitter = .contend) : LinkPart s (onLink (fun l => { l with transmitter := .send }) s)
  | lost (h : s.link.transmitter = .contend) :
      LinkPart s (returnInHand (onLink (fun l => { l with transmitter := .quiet }) s))
  | faulted (due : Nat) (h : s.link.transmitter = .contend ∨ s.link.transmitter = .send) :
      LinkPart s (onLink (fun l => { l with transmitter := .abort, receiver := .hunt, abortDue := some due }) s)
  | aborted (h : s.link.transmitter = .abort) : LinkPart s (settleAbort (onLink quietAbort s))
  | unmuted (h : s.link.state = .mute) : LinkPart s (onLink leaveMute s)
  | sent (e : TxEntry) (h : s.link.transmitter = .send) (hand : s.link.inHand = some e) : LinkPart s (onLink (sendDone e) s)
  | headDropped (h : s.picture.store = none) : LinkPart s (dropHead s)

/-- The parts of the picture alone (spec/01). -/
inductive PicturePart (s : State) : State → Prop where
  | shortened : PicturePart s (onPicture (fun p => { p with shortPayload := true }) s)
  | appended (r : Rule) (f : HeldFrame) (h : f ∈ s.link.holding) : PicturePart s (onPicture (appendEvent (eventOf r f)) s)
  | storing (i : Fin 24) (h : s.link.holding ≠ []) : PicturePart s (onPicture (fun p => { p with store := some i }) s)
  | stored (now : Nat) (i : Fin 24) (f : HeldFrame) (h : f ∈ s.link.holding) :
      PicturePart s (onPicture (finishStore now i f) s)
  | aged (n : Fin 32) (r : SlotRecord) (h : s.picture.slots[n].record = some r) (d : r.deadline ≠ none) :
      PicturePart s (onPicture
        (fun p => { p with slots := p.slots.set n ⟨some (ageRecord p.table r), p.slots[n].gap⟩ }) s)
  | taken (e : EventEntry) (rest : List EventEntry) (h : s.picture.events = e :: rest) :
      PicturePart s (onPicture (fun p => { p with events := rest }) s)

/-- The parts of one arm unit, with what they publish (spec/07). -/
inductive ArmPart (u : ArmUnit) (s : State) : State → Prop where
  | read (expiry : Nat) (p : armPresent s u = true) : ArmPart u s (readArm u expiry s)
  | noted (x : StepRecord) (p : armPresent s u = true) (h : (s.arm u).list ≠ .none) :
      ArmPart u s (s.withArm u { s.arm u with record := x })
  | completes (p : armPresent s u = true) (h : (s.arm u).list ≠ .none) : ArmPart u s (completeStep u s)
  | faults (c : ArmFault) (h : c ≠ .none) : ArmPart u s (faultEvent u c s)
  | freed (p : armPresent s u = true) (h : (s.arm u).state = .fault) (f : isSafe s = false)
      (j : s.loader.station = .operating ∨ (s.arm u).cause = .stationSafe) : ArmPart u s (freeArm u s)
  | ready (p : armPresent s u = true) : ArmPart u s (s.withArm u { s.arm u with load := 100 })
  | deploys (p : armPresent s u = true) (o : s.loader.station = .operating) (f : isSafe s = false)
      (h : (s.arm u).state = .stowed ∨ (s.arm u).state = .retracting) : ArmPart u s (startDeploy u s)
  | retracts (h : armActive (s.arm u) = true) : ArmPart u s (startRetract u s)
  | yields (h : armActive (s.arm u) = true) : ArmPart u s (startYield u s)
  | resumes (h : armActive (s.arm u) = true) : ArmPart u s (startResume u s)
  | brushed (p : armPresent s u = true) : ArmPart u s (formBrush u s)
  | deflect (x : Option Nat) : ArmPart u s (s.withArm u { s.arm u with deflectOff := x })
  | window (expiry : Nat) (p : armPresent s u = true) (h : (s.arm u).state = .sweeping) :
      ArmPart u s (loadWindow u expiry s)

/-- The parts of the other duties alone (spec/05, spec/08, spec/09). -/
inductive DutyPart (s : State) : State → Prop where
  | waterStopped (p : s.duties.water = true) (h : s.water.state = .fault) : DutyPart s (stopWater s)
  | driveClaimed (p : s.duties.drive = true) : DutyPart s (setDriveClaim s)
  | driveWorked (expiry : Nat) (p : s.duties.drive = true) : DutyPart s (s.withDrive
      { driveWork s.params.drive (driveInputs s) (paceRun s) s.micros expiry s.drive with due := some (expiry + 10) })
  | waterWorked (expiry : Nat) (p : s.duties.water = true) (r : dutiesRun s = true) :
      DutyPart s (s.withWater (Sys2Proof.Machine.waterWorked s expiry))
  | console (c : Console) (h : c.claim = s.console.claim) : DutyPart s (s.withConsole c)

/-- One part of what a command makes of a station, with the guard under which a command takes it. -/
inductive Part (s : State) : State → Prop where
  | passes : Part s { s with micros := s.micros + 1 }
  | start {t : State} (h : StartPart s t) : Part s t
  | pub {t : State} (h : PubPart s t) : Part s t
  | link {t : State} (h : LinkPart s t) : Part s t
  | picture {t : State} (h : PicturePart s t) : Part s t
  | arm {t : State} (u : ArmUnit) (h : ArmPart u s t) : Part s t
  | duty {t : State} (h : DutyPart s t) : Part s t
  | inputs (i : Inputs) : Part s (s.withInputs i)
  | caused (c : Cause) : Part s (reportCause c s)
  | released (h : releaseGranted s = true) : Part s (clearCauses s)
  | flagsCleared : Part s (clearFlags s)

/-- A sequence of changes of one kind, and none at all: the reflexive and transitive closure. -/
inductive Sequence {α : Type} (r : α → α → Prop) (a : α) : α → Prop where
  | refl : Sequence r a a
  | tail {b c : α} (h : Sequence r a b) (last : r b c) : Sequence r a c

theorem Sequence.single {α : Type} {r : α → α → Prop} {a b : α} (h : r a b) : Sequence r a b := .tail .refl h

theorem Sequence.trans {α : Type} {r : α → α → Prop} {a b c : α} (h : Sequence r a b) (next : Sequence r b c) : Sequence r a c := by
  induction next with
  | refl => exact h
  | tail _ last ih => exact ih.tail last

/-- What a sequence of parts makes of a station. -/
abbrev Moves : State → State → Prop := Sequence Part

theorem Part.moves {s t : State} (h : Part s t) : Moves s t := .single h

theorem StartPart.moves {s t : State} (h : StartPart s t) : Moves s t := (Part.start h).moves

theorem PubPart.moves {s t : State} (h : PubPart s t) : Moves s t := (Part.pub h).moves

theorem LinkPart.moves {s t : State} (h : LinkPart s t) : Moves s t := (Part.link h).moves

theorem PicturePart.moves {s t : State} (h : PicturePart s t) : Moves s t := (Part.picture h).moves

theorem ArmPart.moves {u : ArmUnit} {s t : State} (h : ArmPart u s t) : Moves s t := (Part.arm u h).moves

theorem DutyPart.moves {s t : State} (h : DutyPart s t) : Moves s t := (Part.duty h).moves

/-! ## Requests -/

/-- What deferring an event makes of the scheduler depends on the scheduler alone. -/
theorem deferEvent_pub_congr (e : TxEntry) (p : Publication) {s r : State} :
    (deferEvent e (r.withPub p)).pub = (deferEvent e (s.withPub p)).pub := by
  have pub (q : State) : (deferEvent e (q.withPub p)).pub = if p.deferred.length < 4
      then { p with deferred := p.deferred ++ [e] }
      else countDropped (offerFull e p.deferred).2.1
        { p with deferred := if (offerFull e p.deferred).2.2 then (offerFull e p.deferred).1 ++ [e] else (offerFull e p.deferred).1 } := by
    by_cases free : p.deferred.length < 4
    · rw [if_pos free]
      exact congrArg State.pub (if_pos free)
    · rw [if_neg free]
      exact congrArg State.pub (if_neg free)
  rw [pub, pub]

/-- What a request for an event makes of the scheduler depends on the loader, the clock, the link and the scheduler alone. -/
theorem requestEvent_pub_congr (t : Topic) (payload : List Byte) {s r : State} (hloader : r.loader = s.loader)
    (hmicros : r.micros = s.micros) (hlink : r.link = s.link) (hpub : r.pub = s.pub) :
    (requestEvent t payload r).pub = (requestEvent t payload s).pub := by
  have entry : eventEntry r t payload = eventEntry s t payload := by simp only [eventEntry, ms, hloader, hmicros, hpub]
  have places (p : Publication) : placesTaken (r.withPub p) = placesTaken (s.withPub p) := by
    simp only [placesTaken, State.withPub_pub, State.withPub_link, hlink]
  unfold requestEvent
  rw [hloader, hpub, entry]
  cases s.loader.station with
  | operating =>
    simp only [enqueueEvent, places, State.withPub_pub]
    split <;> rfl
  | joining =>
    exact deferEvent_pub_congr _ _
  | configuring => exact hpub
  | configFault => exact hpub

section

theorem Moves.refl (s : State) : Moves s s := Sequence.refl

theorem requestCyclic_moves (v : CyclicTopic) (s : State) : Moves s (requestCyclic v s) := by
  unfold requestCyclic
  split
  · rename_i h
    obtain ⟨o, p⟩ := Bool.and_eq_true_iff.1 h
    exact (PubPart.published v (ms s) (operating_iff.1 o) p).moves
  · exact .refl s

theorem checkUrgency_moves (s : State) : Moves s (checkUrgency s) := by
  rcases checkUrgency_cases s with h | h
  · rw [h]; exact .refl s
  · rw [h]; exact requestCyclic_moves .pace s

theorem requestNotice_moves (c : NoticeCode) (d1 d2 : Nat) (s : State) : Moves s (requestNotice c d1 d2 s) :=
  (PubPart.asked .notice (noticeRecord c d1 d2) rfl).moves

theorem askClear_moves (i : ClearItems) (s : State) : Moves s (askClear i s) :=
  (PubPart.asked .clear (clearRecord allStations i) rfl).moves

theorem freePlace_moves (s : State) : Moves s (freePlace s) := by
  rcases freePlace_cases s with h | h | h
  · rw [h]; exact .refl s
  · rw [h]; exact PubPart.dropped.moves
  · rw [h]; exact (PubPart.owed true).moves

theorem settleNotice_moves (s : State) : Moves s (settleNotice s) := by
  unfold settleNotice
  split
  · exact (PubPart.owed false).moves.tail (.pub .dropped)
  · exact .refl s

end

/-! ## Start-up (spec/11) -/

section
variable {s : State}

theorem enterConfigFault_moves (code : CheckCode) (h : s.loader.station = .configuring) :
    Moves s (enterConfigFault code s) :=
  (StartPart.imageFailed code h).moves.tail (.caused .configBad)

theorem firstFrame_eq_requestCyclic (o : s.loader.station = .operating) (t : CyclicTopic) :
    firstFrame s t = requestCyclic t s := by
  simp [firstFrame, requestCyclic, operating_iff.2 o]

/-- The first frames are requests one after another, each on a station that is OPERATING still (R59). -/
theorem firstFrames_moves (o : s.loader.station = .operating) (l : List CyclicTopic) : Moves s (l.foldl firstFrame s) := by
  induction l generalizing s with
  | nil => exact .refl s
  | cons t rest ih =>
    rw [List.foldl_cons, firstFrame_eq_requestCyclic o]
    exact (requestCyclic_moves t s).trans (ih ((requestCyclic_frame t s).loader ▸ o))

theorem enterOperating_moves (h : s.loader.station = .joining) : Moves s (enterOperating s) :=
  (StartPart.opened h).moves.trans (firstFrames_moves rfl cyclicTopics)

end

/-! ## The picture (spec/01) and CLEAR (spec/10) -/

section
variable {s : State}

theorem freeArm_moves (u : ArmUnit) (p : armPresent s u = true) (h : (s.arm u).state = .fault) (f : isSafe s = false)
    (j : s.loader.station = .operating ∨ (s.arm u).cause = .stationSafe) : Moves s (freeArm u s) :=
  (ArmPart.freed (u := u) p h f j).moves

theorem releaseArm_moves (u : ArmUnit) (f : isSafe s = false) : Moves s (releaseArm u s) := by
  unfold releaseArm
  split
  · rename_i h
    simp only [Bool.and_eq_true, beq_iff_eq] at h
    obtain ⟨⟨p, fault⟩, cause⟩ := h
    exact freeArm_moves u p fault f (.inr cause)
  · exact .refl s

theorem isSafe_of_safe {s t : State} (h : t.safe = s.safe) : isSafe t = isSafe s := by unfold isSafe; rw [h]

theorem clearCauses_isSafe (s : State) : isSafe (clearCauses s) = false := by
  exact (isSafe_of_safe (setAllClaims_safe _)).trans rfl

theorem safeRelease_moves (h : releaseGranted s = true) : Moves s (safeRelease s) := by
  have free : isSafe (checkUrgency (clearCauses s)) = false := by
    rw [isSafe_of_safe (checkUrgency_frame _).safe, clearCauses_isSafe]
  have freeB : isSafe (releaseArm .a (checkUrgency (clearCauses s))) = false := by
    rw [isSafe_of_safe (releaseArm_frame .a _).safe, free]
  exact (Part.released h).moves.trans ((checkUrgency_moves _).trans ((releaseArm_moves .a free).trans (releaseArm_moves .b freeB)))

theorem takeRelease_moves (s : State) : Moves s (takeRelease s) := by
  unfold takeRelease
  split
  · exact .refl s
  · split
    · rename_i h; exact safeRelease_moves h
    · exact requestNotice_moves ..

theorem takeLatches_moves (s : State) : Moves s (takeLatches s) := by
  unfold takeLatches
  dsimp only
  split
  · rename_i h
    obtain ⟨p, fault⟩ := Bool.and_eq_true_iff.1 h
    exact (Part.flagsCleared.moves.tail (.duty <| .waterStopped p (eq_of_beq fault))).trans
      ((checkUrgency_moves _).trans (requestCyclic_moves .water _))
  · exact Part.flagsCleared.moves

theorem takeArmItem_moves (u : ArmUnit) (s : State) : Moves s (takeArmItem u s) := by
  unfold takeArmItem
  split
  · rename_i h
    simp only [Bool.and_eq_true, beq_iff_eq, Bool.not_eq_true'] at h
    obtain ⟨⟨⟨o, p⟩, fault⟩, free⟩ := h
    exact freeArm_moves u p fault free (.inl (operating_iff.1 o))
  · exact .refl s

theorem whenPresent_moves {f : State → State} (h : ∀ s, Moves s (f s)) (present : Bool) (s : State) :
    Moves s (whenPresent present f s) := by
  cases present
  · exact .refl s
  · exact h s

theorem takeClear_moves (i : ClearItems) (s : State) : Moves s (takeClear i s) :=
  (whenPresent_moves takeRelease_moves _ _).trans <| (whenPresent_moves takeLatches_moves _ _).trans <|
    (whenPresent_moves (takeArmItem_moves .a) _ _).trans (whenPresent_moves (takeArmItem_moves .b) _ _)

/-- What an entry handed to its owner does, if it has one (R24). -/
theorem handEntry_cases (e : EventEntry) (s : State) :
    handEntry e s = s ∨ handEntry e s = reportCause .peerHalt s ∨ handEntry e s = takeClear (clearItems e.payload) s
      ∨ handEntry e s = requestEvent .report (reportRecord s (byteAt e.payload 1)) s ∨ handEntry e s = lightLamp s := by
  unfold handEntry
  dsimp only
  split
  · exact .inr (.inl rfl)
  · split
    · exact .inr (.inr (.inl rfl))
    · split
      · exact .inr (.inr (.inr (.inl rfl)))
      · split
        · exact .inr (.inr (.inr (.inr rfl)))
        · exact .inl rfl

theorem handEntry_moves (e : EventEntry) (s : State) : Moves s (handEntry e s) := by
  rcases handEntry_cases e s with h | h | h | h | h <;> rw [h]
  · exact .refl s
  · exact (Part.caused .peerHalt).moves
  · exact takeClear_moves _ s
  · exact (PubPart.asked .report _ (reportRecord_length ..)).moves
  · exact (DutyPart.console _ (by rfl)).moves

theorem deliver_moves (i : Fin 24) {f : HeldFrame} (held : f ∈ s.link.holding) (store : s.picture.store = none) :
    Moves s (deliver i f s) := by
  have nonempty : s.link.holding ≠ [] := List.ne_nil_of_mem held
  have dropped (p : Picture) (none : p.store = none) : Part (s.withPicture p) (dropHead (s.withPicture p)) :=
    .link (.headDropped none)
  have append := (PicturePart.appended s.picture.table[i] f held).moves
  have kept : (appendEvent (eventOf s.picture.table[i] f) s.picture).store = none := by
    rw [← store]; unfold appendEvent; split <;> rfl
  unfold deliver
  dsimp only
  split
  · exact PicturePart.shortened.moves.tail (dropped _ store)
  · split
    · exact append.tail (dropped _ kept)
    · exact (PicturePart.storing i nonempty).moves
    · exact append.tail (.picture <| .storing i nonempty)

/-- A pass checks the address first, and then drops or delivers the frame (R4–R7). -/
theorem filterFrame_cases (f : HeldFrame) (s : State) : ∃ t, (t = s ∨ t = reportCause .addressConflict s)
    ∧ (filterFrame f s = dropHead t ∨ ∃ i, filterFrame f s = deliver i f t) := by
  refine ⟨if addressConflict s f then reportCause .addressConflict s else s, ?_, ?_⟩
  · split
    · exact .inr rfl
    · exact .inl rfl
  · unfold filterFrame
    dsimp only
    generalize (if addressConflict s f = true then reportCause .addressConflict s else s) = t
    split
    · exact .inl rfl
    · exact .inr ⟨_, rfl⟩

theorem filterFrame_moves {f : HeldFrame} (held : f ∈ s.link.holding) (store : s.picture.store = none) :
    Moves s (filterFrame f s) := by
  obtain ⟨t, checked, ends⟩ := filterFrame_cases f s
  have reached : Moves s t ∧ f ∈ t.link.holding ∧ t.picture.store = none := by
    rcases checked with rfl | rfl
    · exact ⟨.refl _, held, store⟩
    · have frame := reportCause_frame .addressConflict s
      exact ⟨(Part.caused .addressConflict).moves, by rw [frame.link]; exact held, by rw [frame.picture]; exact store⟩
  obtain ⟨moves, held, store⟩ := reached
  rcases ends with h | ⟨i, h⟩
  · rw [h]; exact moves.tail (.link <| .headDropped store)
  · rw [h]; exact moves.trans (deliver_moves i held store)

end

/-! ## Inputs and the arm units (spec/06, spec/07) -/

section
variable {s : State} {u : ArmUnit}

theorem loseChannel_moves (ch : Fin 6) (s : State) : Moves s (loseChannel ch s) := by
  have noticed := fun i : Inputs =>
    (Part.inputs (s := s) i).moves.trans (requestNotice_moves .sensorLost ch.val (pulseFnCode s.inputs.pulse[ch].fn) _)
  unfold loseChannel
  dsimp only
  split
  · exact (noticed _).tail (.arm _ <| .faults .brushSensor (by decide))
  · exact noticed _

/-- A step in progress belongs to a running list. -/
theorem list_ne_none_of_stepInProgress {st : Step} (h : stepInProgress s u = some st) : (s.arm u).list ≠ .none := by
  intro none
  simp [stepInProgress, stepsLeft, none, listSteps] at h

theorem compareAngle_moves (u : ArmUnit) (reading : Nat) (s : State) : Moves s (compareAngle u reading s) := by
  unfold compareAngle
  split
  · rename_i h
    obtain ⟨p, met⟩ := Bool.and_eq_true_iff.1 h
    refine (ArmPart.completes (u := u) p fun gone => ?_).moves
    have idle : stepInProgress s u = none := by simp [stepInProgress, stepsLeft, gone, listSteps]
    simp [angleCompletes, idle] at met
  · exact .refl s

theorem handAngle_moves (u : ArmUnit) (left : Bool) (reading : Nat) (s : State) : Moves s (handAngle u left reading s) := by
  have fault (t : State) : Moves t (faultEvent u .angleRange t) := (ArmPart.faults (u := u) .angleRange (by decide)).moves
  unfold handAngle
  split
  · split
    · exact (fault s).trans (compareAngle_moves ..)
    · exact (compareAngle_moves ..).trans (fault _)
  · exact compareAngle_moves ..

theorem handConversion_moves (fn : AnalogFn) (left : Bool) (reading : Nat) (s : State) :
    Moves s (handConversion fn left reading s) := by
  unfold handConversion
  split
  · split
    · exact requestNotice_moves ..
    · exact .refl s
  · exact handAngle_moves ..
  · exact handAngle_moves ..
  all_goals exact .refl s

theorem pressDeflect_moves (u : ArmUnit) (s : State) : Moves s (pressDeflect u s) := by
  have noted := (ArmPart.deflect (s := s) (u := u) none).moves
  have yields (active : armActive (s.arm u) = true) : Moves s
      (if operating s = true then startYield u (s.withArm u { s.arm u with deflectOff := none })
        else s.withArm u { s.arm u with deflectOff := none }) := by
    split
    · exact noted.tail (.arm _ <| .yields (by rw [State.withArm_arm_same]; exact active))
    · exact noted
  unfold pressDeflect
  dsimp only
  split
  case h_1 h | h_2 h | h_3 h => exact yields (by simp [armActive, h])
  all_goals exact noted

theorem handSwitch_moves (fn : SwitchFn) (on : Bool) (s : State) : Moves s (handSwitch fn on s) := by
  have deflect (u : ArmUnit) : Moves s (if on = true then pressDeflect u s else releaseDeflect u s) := by
    split
    · exact pressDeflect_moves u s
    · exact (ArmPart.deflect (u := u) _).moves
  have button (p : Position) (x : ArmRequest) : Moves s (if (on && operating s) = true then pressArm p x s else s) := by
    split
    · exact (DutyPart.console _ (by rfl)).moves
    · exact .refl s
  unfold handSwitch
  split
  · exact deflect .a
  · exact deflect .b
  · split
    · split
      · unfold pressReset
        split
        · exact (DutyPart.console _ (by rfl)).moves.trans (askClear_moves ..)
        · exact .refl s
      · exact .refl s
    · exact (DutyPart.console _ (by rfl)).moves
  · exact button _ .deploy
  · exact button _ .retract
  all_goals exact .refl s

theorem checkStep_moves (p : armPresent s u = true) : Moves s (checkStep u s) := by
  have completes (b : Bool) (h : (s.arm u).list ≠ .none) : Moves s (if b = true then completeStep u s else s) := by
    split
    · exact (ArmPart.completes (u := u) p h).moves
    · exact .refl s
  unfold checkStep
  split
  · rename_i mm h
    have running := list_ne_none_of_stepInProgress h
    have noted := (ArmPart.noted (s := s) (u := u) (distanceRecord s) p running).moves
    unfold checkDistance
    dsimp only
    split
    · exact completes _ running
    all_goals
      split
      · exact noted.tail (.arm _ <| .completes (by simpa using p) (by simpa using running))
      · exact noted
  · rename_i h
    exact completes _ (list_ne_none_of_stepInProgress h)
  · rename_i h
    exact completes _ (list_ne_none_of_stepInProgress h)
  all_goals exact .refl s

theorem checkAngle_moves (u : ArmUnit) (s : State) : Moves s (checkAngle u s) := by
  unfold checkAngle
  split
  · exact .refl s
  · exact (ArmPart.faults (u := u) .angleRange (by decide)).moves

theorem isSafe_of_deployCondition (h : deployCondition s u = true) : isSafe s = false := by
  simp only [deployCondition, Bool.and_eq_true, Bool.not_eq_true'] at h
  exact h.1.2

theorem armTransition_moves (p : armPresent s u = true) (o : s.loader.station = .operating) (expiry : Nat) :
    Moves s (armTransition u expiry s) := by
  have working (active : armActive (s.arm u) = true) : Moves s (workingPeriod u expiry s) := by
    unfold workingPeriod
    split
    · exact (ArmPart.retracts (u := u) active).moves
    · split
      · exact (ArmPart.yields (u := u) active).moves
      · exact .refl s
  unfold armTransition
  split
  case h_1 h =>
    unfold stowedPeriod
    split
    · rename_i d
      exact (ArmPart.ready (u := u) p).moves.tail (.arm _ <| .deploys (by simpa using p) (by simpa using o)
        (by simpa using isSafe_of_deployCondition d) (.inl (by simpa using h)))
    · exact .refl s
  case h_2 h | h_3 h | h_4 h => exact working (by simp [armActive, h])
  case h_5 => exact .refl s
  case h_6 h =>
    have active : armActive (s.arm u) = true := by simp [armActive, h]
    unfold yieldedPeriod
    split
    · exact (ArmPart.retracts (u := u) active).moves
    · split
      · exact (ArmPart.resumes (u := u) active).moves
      · exact .refl s
  case h_7 h =>
    split
    · rename_i d
      exact (ArmPart.deploys (u := u) p o (isSafe_of_deployCondition d) (.inr h)).moves
    · exact .refl s
  case h_8 => exact .refl s

theorem armPeriod_moves (p : armPresent s u = true) (expiry : Nat) : Moves s (armPeriod u expiry s) := by
  have read := (ArmPart.read (u := u) expiry p).moves
  unfold armPeriod
  dsimp only
  split
  · rename_i o
    have o := operating_iff.1 o
    have frame1 := (readArm_frame u expiry s).trans (checkStep_frame u _)
    have frame2 := frame1.trans (checkAngle_frame u _)
    have frame3 := frame2.trans (armTransition_frame u expiry _)
    exact (read.trans (checkStep_moves (by rw [(readArm_frame ..).armPresent_eq]; exact p))).trans <|
      (checkAngle_moves u _).trans <|
      (armTransition_moves (by rw [frame2.armPresent_eq]; exact p) (by rw [frame2.loader]; exact o) expiry).tail
        (.arm u <| .brushed (by rw [frame3.armPresent_eq]; exact p))
  · exact read

end

/-! ## The drive, the water and the console (spec/05, spec/08, spec/09) -/

section
variable {s : State}

theorem drivePeriod_moves (p : s.duties.drive = true) (expiry : Nat) : Moves s (drivePeriod expiry s) := by
  have frame := checkUrgency_frame (setDriveClaim s)
  exact ((DutyPart.driveClaimed p).moves.trans (checkUrgency_moves _)).tail
    (.duty <| .driveWorked expiry (by rw [frame.duties]; exact p))

/-- The NOTICE of the tank reads nothing of the water duty but the tank, so that it may be asked for after the period's work. -/
theorem waterChecked_moves (p : s.duties.water = true) (r : dutiesRun s = true) (expiry : Nat) :
    Moves s (waterChecked s expiry) := by
  have worked := (DutyPart.waterWorked expiry p r).moves
  have asked : Moves s ((s.withWater (waterWorked s expiry)).withPub (waterNoticed s expiry).pub) := by
    unfold waterNoticed noticeTank
    split
    · have notice := requestNotice_moves .tankLow ((waterFormed s expiry).tank / 4) 0 (s.withWater (waterWorked s expiry))
      rw [(requestNotice_frame ..).eq] at notice
      have same : (requestNotice .tankLow ((waterFormed s expiry).tank / 4) 0 (s.withWater (waterFormed s expiry))).pub
          = (requestNotice .tankLow ((waterFormed s expiry).tank / 4) 0 (s.withWater (waterWorked s expiry))).pub :=
        requestEvent_pub_congr _ _ rfl rfl rfl rfl
      exact worked.trans (same ▸ notice)
    · exact worked
  rw [← setWaterClaim_waterNoticed] at asked
  exact asked.trans (checkUrgency_moves _)

theorem waterPeriod_moves (p : s.duties.water = true) (r : dutiesRun s = true) (expiry : Nat) :
    Moves s (waterPeriod expiry s) := by
  rw [waterPeriod_eq]
  split
  · exact waterChecked_moves p r expiry
  · exact (waterChecked_moves p r expiry).trans (requestCyclic_moves ..)

theorem checkHold_moves (s : State) : Moves s (checkHold s) := by
  unfold checkHold
  split
  · unfold endHold
    dsimp only
    split
    · exact (DutyPart.console _ (by rfl)).moves.trans (askClear_moves ..)
    · exact (DutyPart.console _ (by rfl)).moves
  · exact .refl s

theorem checkHalt_moves (s : State) : Moves s (checkHalt s) := by
  unfold checkHalt
  split
  · exact (Part.caused .haltButton).moves
  · exact .refl s

theorem consolePeriod_moves (expiry : Nat) (s : State) : Moves s (consolePeriod expiry s) := by
  obtain ⟨read, hread⟩ : ∃ read, read = s.withConsole
    { consoleReadings s.params.console s.inputs s.console with due := some (expiry + 20) } := ⟨_, rfl⟩
  have readMoves : Moves s read := hread ▸ (DutyPart.console _ (by rfl)).moves
  have noticed : Moves s
      (if read.console.modeInvalid && !s.console.modeInvalid then requestNotice .modeInvalid 0 0 read else read) := by
    split
    · exact readMoves.trans (requestNotice_moves ..)
    · exact readMoves
  unfold consolePeriod
  rw [← hread]
  dsimp only
  split
  · exact (noticed.trans (checkHalt_moves _)).trans (checkHold_moves _)
  · exact noticed

end

/-! ## Commands and steps -/

section
variable {s t : State}

/-- A guarded effect does nothing or takes its parts. -/
theorem ite_moves {g : Bool} {r : State} (h : g = true → Moves s r) : Moves s (if g = true then r else s) := by
  split
  · rename_i hg; exact h hg
  · exact .refl s

theorem station_configuring_of_reading (h : reading s = true) : s.loader.station = .configuring := by
  simp only [reading, Bool.and_eq_true, beq_iff_eq] at h
  exact h.1

theorem station_ne_of_sampling (h : sampling s = true) : s.loader.station ≠ .configuring := by
  simpa [sampling] using h

/-- The frame that 5 + L characters carry is as long as its header declares (R27). -/
theorem collectFrame_whole {chars : List Byte} (h : frameComplete chars = true) :
    declaresLength (collectFrame chars).header (collectFrame chars).payload := by
  have low (a b : Byte) : headerLength (a ++ b) = b.toNat % 16 := by
    have ha := a.isLt
    have hb := b.isLt
    rw [← word_of_bytes, headerLength, BitVec.extractLsb'_toNat, BitVec.toNat_ofNat]
    omega
  have len : chars.length = 5 + declaredLength chars := by simpa [frameComplete] using h
  unfold declaresLength
  rw [show (collectFrame chars).header = chars.getD 0 0 ++ chars.getD 1 0 from rfl, low]
  show ((chars.drop 3).take (declaredLength chars)).length = declaredLength chars
  rw [List.length_take, List.length_drop]
  omega

/-- Every command but the two of reset is a sequence of parts. -/
theorem exec_moves {c : Instr} (notAsserted : c ≠ .resetAsserted) (notReset : ∀ straps, c ≠ .stationReset straps)
    (h : exec c s = .next t) : Moves s t := by
  cases c with
  | stationReset straps => exact absurd rfl (notReset straps)
  | resetAsserted => exact absurd rfl notAsserted
  | imageReadFailed =>
    obtain rfl := Host.Outcome.next.inj h
    refine ite_moves fun r => ?_
    have configuring := station_configuring_of_reading r
    split
    · exact (StartPart.readAgain configuring).moves
    · exact enterConfigFault_moves _ configuring
  | imageReadComplete image first =>
    obtain rfl := Host.Outcome.next.inj h
    refine ite_moves fun r => ?_
    have configuring := station_configuring_of_reading r
    split
    · exact enterConfigFault_moves _ configuring
    · exact (StartPart.imageAccepted image first configuring).moves
  | joinTimerExpiry =>
    obtain rfl := Host.Outcome.next.inj h
    refine ite_moves fun r => ?_
    simp only [Bool.and_eq_true, beq_iff_eq] at r
    exact enterOperating_moves r.1
  | configBadTimerExpiry =>
    obtain rfl := Host.Outcome.next.inj h
    split
    · refine ite_moves fun r => ?_
      simp only [Bool.and_eq_true, beq_iff_eq] at r
      exact (PubPart.configBadTimer _).moves.tail (.pub <| .configBad r.1)
    · exact .refl s
  | idleSeen =>
    obtain rfl := Host.Outcome.next.inj h
    exact ite_moves fun r => (LinkPart.idle (station_ne_of_sampling r)).moves
  | framingError =>
    obtain rfl := Host.Outcome.next.inj h
    exact ite_moves fun _ => LinkPart.framing.moves
  | receiveFrameComplete chars =>
    obtain rfl := Host.Outcome.next.inj h
    refine ite_moves fun r => (LinkPart.received (collectFrame chars) (collectFrame_whole ?_)).moves
    exact (Bool.and_eq_true_iff.1 r).2
  | transmitStart =>
    obtain rfl := Host.Outcome.next.inj h
    exact ite_moves fun r => (LinkPart.contends r).moves
  | frameBegins =>
    obtain rfl := Host.Outcome.next.inj h
    refine ite_moves fun waiting => ?_
    split
    · rename_i r; exact (LinkPart.contends r).moves
    · exact (LinkPart.begins (eq_of_beq waiting)).moves
  | arbitrationWon =>
    obtain rfl := Host.Outcome.next.inj h
    exact ite_moves fun r => (LinkPart.won (eq_of_beq r)).moves
  | arbitrationLost =>
    obtain rfl := Host.Outcome.next.inj h
    exact ite_moves fun r => (LinkPart.lost (eq_of_beq r)).moves
  | transmitFault =>
    obtain rfl := Host.Outcome.next.inj h
    refine ite_moves fun r => (LinkPart.faulted _ ?_).moves
    simpa using r
  | abortEnd =>
    obtain rfl := Host.Outcome.next.inj h
    refine ite_moves fun r => (LinkPart.aborted ?_).moves
    exact eq_of_beq (Bool.and_eq_true_iff.1 r).1
  | transmitSuccess =>
    obtain rfl := Host.Outcome.next.inj h
    refine ite_moves fun sends => ?_
    split
    · rename_i e hand
      have sent := (LinkPart.sent e (eq_of_beq sends) hand).moves
      split
      · exact sent.trans (freePlace_moves _)
      · exact sent
    · exact .refl s
  | muteTimerExpiry =>
    obtain rfl := Host.Outcome.next.inj h
    refine ite_moves fun r => (LinkPart.unmuted ?_).moves
    exact eq_of_beq (Bool.and_eq_true_iff.1 r).1
  | filterPass =>
    obtain rfl := Host.Outcome.next.inj h
    refine ite_moves fun r => ?_
    have store : s.picture.store = none := Option.isNone_iff_eq_none.1 (Bool.and_eq_true_iff.1 r).2
    split
    · rename_i f head
      exact filterFrame_moves (List.mem_of_head? head) store
    · exact .refl s
  | storeComplete =>
    obtain rfl := Host.Outcome.next.inj h
    split
    · rename_i i f store head
      exact (PicturePart.stored (ms s) i f (List.mem_of_head? head)).moves.tail (.link <| .headDropped rfl)
    · exact .refl s
  | slotDeadline n =>
    obtain rfl := Host.Outcome.next.inj h
    split
    · rename_i r held
      refine ite_moves fun passed => (PicturePart.aged n r held fun none => ?_).moves
      rw [none] at passed
      cases passed
    · exact .refl s
  | eventHandlerTake =>
    obtain rfl := Host.Outcome.next.inj h
    split
    · rename_i e rest head
      exact ite_moves fun _ => (PicturePart.taken e rest head).moves.trans (handEntry_moves ..)
    · exact .refl s
  | periodTimerExpiry topic =>
    obtain rfl := Host.Outcome.next.inj h
    split
    · refine ite_moves fun r => ?_
      simp only [Bool.and_eq_true] at r
      obtain ⟨⟨o, p⟩, -⟩ := r
      exact (PubPart.published topic _ (operating_iff.1 o) p).moves
    · exact .refl s
  | drivePeriodExpiry =>
    obtain rfl := Host.Outcome.next.inj h
    split
    · refine ite_moves fun r => drivePeriod_moves ?_ _
      simp only [Bool.and_eq_true] at r
      exact r.1.2
    · exact .refl s
  | pulseEdge ch =>
    obtain rfl := Host.Outcome.next.inj h
    refine ite_moves fun _ => ?_
    dsimp only
    split
    · exact (Part.inputs _).moves
    · exact (Part.inputs _).moves
  | missingDeadline ch =>
    obtain rfl := Host.Outcome.next.inj h
    exact ite_moves fun _ => (Part.inputs _).moves
  | stopDeadline ch =>
    obtain rfl := Host.Outcome.next.inj h
    refine ite_moves fun _ => ?_
    split
    · exact loseChannel_moves ..
    · exact (Part.inputs _).moves
  | watchDeadline ch =>
    obtain rfl := Host.Outcome.next.inj h
    exact ite_moves fun _ => loseChannel_moves ..
  | analogConversion ai reading =>
    obtain rfl := Host.Outcome.next.inj h
    exact ite_moves fun _ => (Part.inputs _).moves.trans (handConversion_moves ..)
  | switchSample si low =>
    obtain rfl := Host.Outcome.next.inj h
    refine ite_moves fun _ => ?_
    dsimp only
    split
    · exact (Part.inputs _).moves
    · exact (Part.inputs _).moves.trans (handSwitch_moves ..)
  | armPeriodExpiry u =>
    obtain rfl := Host.Outcome.next.inj h
    split
    · refine ite_moves fun r => armPeriod_moves ?_ _
      simp only [Bool.and_eq_true] at r
      exact r.1.2
    · exact .refl s
  | waitTimeComplete u =>
    obtain rfl := Host.Outcome.next.inj h
    refine ite_moves fun r => ?_
    obtain ⟨p, met⟩ := Bool.and_eq_true_iff.1 r
    refine (ArmPart.completes (u := u) p fun gone => ?_).moves
    have idle : stepInProgress s u = none := by simp [stepInProgress, stepsLeft, gone, listSteps]
    simp [waitTimeOver, idle] at met
  | stepDeadline u =>
    obtain rfl := Host.Outcome.next.inj h
    exact ite_moves fun _ => (ArmPart.faults (u := u) .stepTimeout (by decide)).moves
  | loadWindowExpiry u =>
    obtain rfl := Host.Outcome.next.inj h
    split
    · refine ite_moves fun r => ?_
      simp only [Bool.and_eq_true, beq_iff_eq] at r
      obtain ⟨⟨p, sweeping⟩, -⟩ := r
      exact (ArmPart.window (u := u) _ p sweeping).moves
    · exact .refl s
  | waterPeriodExpiry =>
    obtain rfl := Host.Outcome.next.inj h
    split
    · refine ite_moves fun r => ?_
      simp only [Bool.and_eq_true] at r
      obtain ⟨⟨runs, p⟩, -⟩ := r
      exact waterPeriod_moves p runs _
    · exact .refl s
  | consolePeriodExpiry =>
    obtain rfl := Host.Outcome.next.inj h
    split
    · exact ite_moves fun _ => consolePeriod_moves ..
    · exact .refl s
  | resetHoldTimerExpiry =>
    obtain rfl := Host.Outcome.next.inj h
    exact checkHold_moves s
  | lampDeadline =>
    obtain rfl := Host.Outcome.next.inj h
    exact ite_moves fun _ => (DutyPart.console _ (by rfl)).moves

/-- With no command waiting the instant's owed NOTICE is settled and time passes. -/
theorem passMicrosecond_moves (s : State) : Moves s (passMicrosecond s) := by
  unfold passMicrosecond
  split
  · exact .refl s
  · rw [← (settleNotice_frame s).micros]
    exact (settleNotice_moves s).tail .passes

end

/-! ## What the parts leave alone -/

section
variable {s t : State}

theorem PubPart.frame (h : PubPart s t) : KeepsAllButPub s t := by
  cases h with
  | published t start o p => exact (publishCyclic_frame t s).trans (startPeriod_frame ..)
  | asked t payload h => exact requestEvent_frame ..
  | configBadTimer next => exact .withPub ..
  | configBad h => exact requestConfigBad_frame s
  | dropped => exact reportDropped_frame s
  | owed b => exact .withPub ..

theorem PicturePart.eq (h : PicturePart s t) : t = s.withPicture t.picture := by
  cases h <;> rfl

theorem ArmPart.frame {u : ArmUnit} (h : ArmPart u s t) : KeepsAllButArm u s t := by
  cases h with
  | read expiry p => exact readArm_frame ..
  | noted | ready | brushed | deflect => exact .withArm ..
  | completes p h => exact completeStep_frame u s
  | faults c h => exact faultEvent_frame ..
  | freed p h f j => exact freeArm_frame u s
  | deploys p o f h => exact startDeploy_frame u s
  | retracts h => exact startRetract_frame u s
  | yields h => exact startYield_frame u s
  | resumes h => exact startResume_frame u s
  | window expiry p h => exact loadWindow_frame ..

theorem DutyPart.frame (h : DutyPart s t) : KeepsAllButDuties s t := by
  cases h with
  | waterStopped p h => exact (KeepsAllButDuties.withWater s _).trans (.withWater ..)
  | driveClaimed | driveWorked => exact .withDrive ..
  | waterWorked => exact .withWater ..
  | console => exact .withConsole ..

theorem clearCauses_frame (s : State) : KeepsAllButDuties s (clearCauses s) :=
  (KeepsAllButDuties.withCauses s noCauses).trans (setAllClaims_frame _)

end

/-- A property that every part keeps, kept along a sequence of parts. -/
theorem Moves.keep {P : State → Prop} (part : ∀ {s t}, P s → Part s t → P t) {s t : State} (h : Moves s t) (hs : P s) : P t := by
  induction h with
  | refl => exact hs
  | tail _ last ih => exact part ih last

/-- What a station is right after a reset, before anything is read (R195). -/
theorem resetWith_moves (straps : BitVec 4) : Moves (State.atReset false straps) (resetWith straps) := by
  unfold resetWith
  dsimp only
  split
  · exact enterConfigFault_moves .address rfl
  · exact (StartPart.readAgain rfl).moves

/-- An invariant of the machine: it holds at reset, says nothing of the commands that wait, and every part keeps it; so every
step keeps it. -/
theorem step_keeps {P : State → Prop} (reset : ∀ held address, P (State.atReset held address))
    (pending : ∀ {s} q, P s → P { s with pending := q }) (part : ∀ {s t}, P s → Part s t → P t) {s t : State}
    (hs : P s) (h : step s = .next t) : P t := by
  unfold step at h
  split at h
  · obtain rfl := Host.Outcome.next.inj h
    exact (passMicrosecond_moves s).keep part hs
  · rename_i c rest _
    by_cases asserted : c = .resetAsserted
    · subst asserted
      obtain rfl := Host.Outcome.next.inj h
      exact pending rest (reset true 0)
    · by_cases again : ∃ straps, c = .stationReset straps
      · obtain ⟨straps, rfl⟩ := again
        obtain rfl := Host.Outcome.next.inj h
        exact pending rest ((resetWith_moves straps).keep part (reset false straps))
      · exact (exec_moves asserted (fun straps e => again ⟨straps, e⟩) h).keep part (pending rest hs)

end Sys2Proof.Machine
end

section
/-! PROOFS. What the operations of an arm unit, of Safe Control and of start-up do beside the duties' own blocks: they publish, and
nothing more. -/

namespace Sys2Proof.Machine

/-! ## An arm unit's operations -/

/-- One elementary change that an operation of an arm unit makes: of the arm with its claim as it stands, of its claim, the check of
the combined urgency, or the unit's own topic asked for. -/
inductive ArmStep (u : ArmUnit) (s : State) : State → Prop where
  | holds (x : Arm) (h : x.claim = (s.arm u).claim) : ArmStep u s (s.withArm u x)
  | claims : ArmStep u s (setArmClaim u s)
  | checks : ArmStep u s (checkUrgency s)
  | asks : ArmStep u s (askArm u s)

/-- What a sequence of such changes makes of a station. -/
abbrev ArmMoves (u : ArmUnit) : State → State → Prop := Sequence (ArmStep u)

section
variable {u : ArmUnit} {s t r : State}

theorem ArmStep.moves (h : ArmStep u s t) : ArmMoves u s t := .single h

theorem ArmMoves.refl (u : ArmUnit) (s : State) : ArmMoves u s s := Sequence.refl

theorem withArm_armMoves {x : Arm} (h : x.claim = (s.arm u).claim) : ArmMoves u s (s.withArm u x) := (ArmStep.holds x h).moves

theorem checkUrgency_armMoves (s : State) : ArmMoves u s (checkUrgency s) := ArmStep.checks.moves

theorem reformArmClaim_armMoves (u : ArmUnit) (s : State) : ArmMoves u s (reformArmClaim u s) :=
  ArmStep.claims.moves.trans (checkUrgency_armMoves _)

theorem enterState_claim (p : ArmParams) (nowUs nowMs : Nat) (st : ArmState) (a : Arm) :
    (enterState p nowUs nowMs st a).claim = a.claim := (settleBrush_only ..).claim

theorem changeArm_armMoves (u : ArmUnit) (st : ArmState) (s : State) : ArmMoves u s (changeArm u st s) :=
  (withArm_armMoves (enterState_claim ..)).trans (reformArmClaim_armMoves ..)

theorem askArm_armMoves (u : ArmUnit) (s : State) : ArmMoves u s (askArm u s) := ArmStep.asks.moves

theorem restIn_armMoves (u : ArmUnit) (st : ArmState) (s : State) : ArmMoves u s (restIn u st s) :=
  (changeArm_armMoves u st s).trans (askArm_armMoves ..)

theorem beginStep_eq (u : ArmUnit) (st : Step) (s : State) : beginStep u st s = s.withArm u ((beginStep u st s).arm u) := by
  unfold beginStep
  dsimp only
  split <;> rw [State.withArm_arm_same]

theorem beginStep_armMoves (u : ArmUnit) (st : Step) (s : State) : ArmMoves u s (beginStep u st s) := by
  obtain ⟨-, -, -, -, -, -, -, claim, -⟩ := beginStep_fields u st s
  rw [beginStep_eq]
  exact withArm_armMoves claim

theorem runSteps_armMoves (u : ArmUnit) (l : List Step) (s : State) : ArmMoves u s (runSteps u l s).1 := by
  induction l generalizing s with
  | nil => exact .refl u s
  | cons st rest ih =>
    unfold runSteps
    dsimp only
    split
    · exact ((beginStep_armMoves u st s).trans (withArm_armMoves (by rfl))).trans (ih _)
    · exact beginStep_armMoves u st s

theorem endList_armMoves (u : ArmUnit) (r : State × Bool) : ArmMoves u r.1 (endList u r).1 := by
  unfold endList
  dsimp only
  split
  · exact withArm_armMoves rfl
  · exact .refl u _

theorem startList_armMoves (u : ArmUnit) (st : ArmState) (l : ListName) (s : State) :
    ArmMoves u s (startList u st l s).1 :=
  ((withArm_armMoves (by rfl)).trans (changeArm_armMoves u st _)).trans <|
    (runSteps_armMoves ..).trans ((endList_armMoves ..).trans (askArm_armMoves ..))

/-- A list started, and the rest that follows when it is done at once. -/
theorem startList_restIn_armMoves (u : ArmUnit) (st rest : ArmState) (l : ListName) (s : State) :
    ArmMoves u s (if (startList u st l s).2 then restIn u rest (startList u st l s).1 else (startList u st l s).1) := by
  split
  · exact (startList_armMoves ..).trans (restIn_armMoves ..)
  · exact startList_armMoves ..

theorem startRetract_armMoves (u : ArmUnit) (s : State) : ArmMoves u s (startRetract u s) :=
  startList_restIn_armMoves u .retracting .stowed .retract s

theorem startDeploy_armMoves (u : ArmUnit) (s : State) : ArmMoves u s (startDeploy u s) :=
  startList_restIn_armMoves u .deploying .sweeping .deploy s

theorem startResume_armMoves (u : ArmUnit) (s : State) : ArmMoves u s (startResume u s) :=
  startList_restIn_armMoves u .resuming .sweeping .resume s

theorem finishYield_armMoves (u : ArmUnit) (s : State) : ArmMoves u s (finishYield u s) := by
  unfold finishYield
  split
  · exact startRetract_armMoves ..
  · exact restIn_armMoves ..

theorem startYield_armMoves (u : ArmUnit) (s : State) : ArmMoves u s (startYield u s) := by
  unfold startYield
  dsimp only
  split
  · exact (startList_armMoves ..).trans (finishYield_armMoves ..)
  · exact startList_armMoves ..

theorem finishList_armMoves (u : ArmUnit) (l : ListName) (s : State) : ArmMoves u s (finishList u l s) := by
  cases l
  · exact .refl u s
  · exact restIn_armMoves ..
  · exact restIn_armMoves ..
  · exact finishYield_armMoves ..
  · exact restIn_armMoves ..

theorem completeStep_armMoves (u : ArmUnit) (s : State) : ArmMoves u s (completeStep u s) := by
  have ended := ((withArm_armMoves (s := s) (u := u) (x := countStep (s.arm u)) rfl).trans (runSteps_armMoves ..)).trans
    (endList_armMoves u (runSteps u (stepsLeft (armParams (s.withArm u (countStep (s.arm u))) u)
      ((s.withArm u (countStep (s.arm u))).arm u)) (s.withArm u (countStep (s.arm u)))))
  unfold completeStep
  dsimp only
  split
  · exact ended.trans (finishList_armMoves ..)
  · exact ended

theorem faultArm_armMoves (u : ArmUnit) (c : ArmFault) (s : State) : ArmMoves u s (faultArm u c s) :=
  ((withArm_armMoves (by rfl)).trans (reformArmClaim_armMoves ..)).trans (askArm_armMoves ..)

theorem faultEvent_armMoves (u : ArmUnit) (c : ArmFault) (s : State) : ArmMoves u s (faultEvent u c s) := by
  rcases faultEvent_cases u c s with h | ⟨-, -, h⟩ <;> rw [h]
  · exact .refl u s
  · exact faultArm_armMoves ..

theorem freeArm_armMoves (u : ArmUnit) (s : State) : ArmMoves u s (freeArm u s) :=
  (withArm_armMoves (by rfl)).trans (startRetract_armMoves ..)

theorem formBrush_armMoves (u : ArmUnit) (s : State) : ArmMoves u s (formBrush u s) :=
  withArm_armMoves (periodBrush_only ..).claim

theorem loadWindow_armMoves (u : ArmUnit) (expiry : Nat) (s : State) : ArmMoves u s (loadWindow u expiry s) := by
  unfold loadWindow
  dsimp only
  generalize (if brushMeasured s u then _ else _ : Nat) = load
  split
  · exact withArm_armMoves rfl
  · exact (withArm_armMoves (by rfl)).trans (reformArmClaim_armMoves ..)

theorem ArmPart.armMoves (h : ArmPart u s t) : ArmMoves u s t := by
  cases h with
  | read | noted | ready | deflect => exact withArm_armMoves rfl
  | completes p h => exact completeStep_armMoves u s
  | faults c h => exact faultEvent_armMoves ..
  | freed p h f j => exact freeArm_armMoves u s
  | deploys p o f h => exact startDeploy_armMoves u s
  | retracts h => exact startRetract_armMoves u s
  | yields h => exact startYield_armMoves u s
  | resumes h => exact startResume_armMoves u s
  | brushed p => exact formBrush_armMoves u s
  | window expiry p h => exact loadWindow_armMoves ..

/-- An arm unit's operations leave every event alone, whatever they publish. -/
theorem ArmMoves.sameEvents (h : ArmMoves u s t) : SameEvents s.pub t.pub := by
  induction h with
  | refl => exact .refl _
  | tail _ step ih =>
    refine ih.trans ?_
    cases step with
    | holds x h => rw [State.withArm_pub]; exact .refl _
    | claims => rw [setArmClaim, State.withArm_pub]; exact .refl _
    | checks => exact checkUrgency_sameEvents _
    | asks => exact requestCyclic_sameEvents ..

end

/-! ## Operations over the duties -/

/-- Flags cleared, block by block (R20, R44, R64, R115). -/
theorem clearFlags_link (s : State) : (clearFlags s).link = clearLinkFlags s.link := rfl
theorem clearFlags_picture (s : State) : (clearFlags s).picture = clearPictureFlags s.picture := rfl
theorem clearFlags_pub (s : State) : (clearFlags s).pub = { s.pub with late := false, droppedFlag := false } := rfl

/-- One change beside the duties' own blocks and the cause set: none, or a part of the scheduler. -/
inductive DutyStep (s : State) : State → Prop where
  | keeps {t : State} (frame : KeepsAllButDuties s t) (pub : t.pub = s.pub) : DutyStep s t
  | pub {t : State} (h : PubPart s t) : DutyStep s t

/-- What a sequence of such changes makes of a station. -/
abbrev DutyMoves : State → State → Prop := Sequence DutyStep

section
variable {u : ArmUnit} {s t r : State}

theorem DutyMoves.refl (s : State) : DutyMoves s s := Sequence.refl

theorem DutyMoves.keeps (frame : KeepsAllButDuties s t) (pub : t.pub = s.pub) : DutyMoves s t := .single (.keeps frame pub)

theorem PubPart.dutyMoves (h : PubPart s t) : DutyMoves s t := .single (.pub h)

theorem requestCyclic_dutyMoves (v : CyclicTopic) (s : State) : DutyMoves s (requestCyclic v s) := by
  unfold requestCyclic
  split
  · rename_i h
    obtain ⟨o, p⟩ := Bool.and_eq_true_iff.1 h
    exact (PubPart.published v (ms s) (operating_iff.1 o) p).dutyMoves
  · exact .refl s

theorem checkUrgency_dutyMoves (s : State) : DutyMoves s (checkUrgency s) := by
  rcases checkUrgency_cases s with h | h
  · rw [h]; exact .refl s
  · rw [h]; exact requestCyclic_dutyMoves .pace s

theorem withArm_dutyMoves (u : ArmUnit) (s : State) (x : Arm) : DutyMoves s (s.withArm u x) :=
  .keeps (.ofArm (.withArm u s x)) (State.withArm_pub u x)

theorem ArmMoves.dutyMoves (h : ArmMoves u s t) : DutyMoves s t := by
  induction h with
  | refl => exact .refl _
  | tail _ step ih =>
    refine ih.trans ?_
    cases step with
    | holds x h => exact withArm_dutyMoves ..
    | claims => exact withArm_dutyMoves ..
    | checks => exact checkUrgency_dutyMoves _
    | asks => exact requestCyclic_dutyMoves ..

theorem setAllClaims_pub (s : State) : (setAllClaims s).pub = s.pub :=
  setAllClaims_keeps State.pub (fun _ => rfl) (fun u _ => by cases u <;> rfl) (fun _ => rfl) (fun _ => rfl) s

theorem setAllClaims_dutyMoves (s : State) : DutyMoves s (setAllClaims s) := .keeps (setAllClaims_frame s) (setAllClaims_pub s)

theorem clearCauses_dutyMoves (s : State) : DutyMoves s (clearCauses s) :=
  .keeps (clearCauses_frame s) (setAllClaims_pub _)

theorem changeWater_dutyMoves (st : WaterState) (s : State) : DutyMoves s (changeWater st s) :=
  ((DutyMoves.keeps (.withWater s _) rfl).trans ((DutyMoves.keeps (.withWater ..) rfl).trans (checkUrgency_dutyMoves _))).trans
    (requestCyclic_dutyMoves ..)

theorem safeWater_dutyMoves (s : State) : DutyMoves s (safeWater s) := by
  have inactive : DutyMoves s (s.withWater { s.water with active := false }) := .keeps (.withWater ..) rfl
  have off := inactive.trans (changeWater_dutyMoves .off _)
  unfold safeWater
  split
  · exact off
  · exact off
  · exact off
  · exact inactive
  · exact inactive
  · exact inactive

theorem whenPresent_dutyMoves {f : State → State} (h : ∀ s, DutyMoves s (f s)) (present : Bool) (s : State) :
    DutyMoves s (whenPresent present f s) := by
  cases present
  · exact .refl s
  · exact h s

theorem safeEntry_dutyMoves (s : State) : DutyMoves s (safeEntry s) :=
  (setAllClaims_dutyMoves s).trans <| (checkUrgency_dutyMoves _).trans <|
    (DutyMoves.keeps (.withDrive _ (safeDrive (checkUrgency (setAllClaims s)).drive)) rfl).trans <|
    (faultEvent_armMoves .a .stationSafe _).dutyMoves.trans <|
    (faultEvent_armMoves .b .stationSafe _).dutyMoves.trans (whenPresent_dutyMoves safeWater_dutyMoves ..)

theorem reportCause_dutyMoves (c : Cause) (s : State) : DutyMoves s (reportCause c s) := by
  have added : DutyMoves s (s.withSafe { s.safe with causes := addCause s.safe.causes c }) := .keeps (.withCauses ..) rfl
  have entered : DutyMoves s (if isSafe s then s.withSafe { s.safe with causes := addCause s.safe.causes c }
      else safeEntry (s.withSafe { s.safe with causes := addCause s.safe.causes c })) := by
    split
    · exact added
    · exact added.trans (safeEntry_dutyMoves _)
  unfold reportCause
  dsimp only
  split
  · exact .refl s
  · split
    · exact entered.trans (PubPart.asked .halt (haltRecord c) rfl).dutyMoves
    · exact entered

theorem DutyPart.dutyMoves (h : DutyPart s t) : DutyMoves s t :=
  .keeps h.frame (by cases h <;> rfl)

/-! ## The start of the duties (R201) -/

theorem requestNotice_dutyMoves (c : NoticeCode) (d1 d2 : Nat) (s : State) : DutyMoves s (requestNotice c d1 d2 s) :=
  (PubPart.asked .notice (noticeRecord c d1 d2) rfl).dutyMoves

theorem startDrive_dutyMoves (s : State) : DutyMoves s (startDrive s) :=
  (DutyMoves.keeps (.withDrive s _) (by rfl)).trans (DutyMoves.keeps (.withDrive ..) rfl)

theorem startArm_dutyMoves (u : ArmUnit) (s : State) : DutyMoves s (startArm u s) := by
  have claimed := (withArm_dutyMoves u s { State.resetArm with
    state := (stowCheck s u).1
    cause := (stowCheck s u).2
    levels := holdLevels s.safe.hold (armParams s u)
    deflectOff := some (ms s)
    due := some (ms s + 20) }).trans (ArmStep.claims (u := u)).moves.dutyMoves
  unfold startArm
  dsimp only
  split
  · exact claimed.trans (requestNotice_dutyMoves ..)
  · exact claimed

theorem noticeTank_dutyMoves (was : Bool) (s : State) : DutyMoves s (noticeTank was s) := by
  unfold noticeTank
  split
  · exact requestNotice_dutyMoves ..
  · exact .refl s

theorem startWater_dutyMoves (s : State) : DutyMoves s (startWater s) :=
  (DutyMoves.keeps (.withWater s _) rfl).trans ((DutyMoves.keeps (.withWater ..) rfl).trans (noticeTank_dutyMoves ..))

theorem startConsole_dutyMoves (s : State) : DutyMoves s (startConsole s) := by
  have claimed : DutyMoves s (setConsoleClaim (s.withConsole { State.resetConsole with due := some (ms s + 20) })) :=
    (DutyMoves.keeps (.withConsole s _) (by rfl)).trans (DutyMoves.keeps (.withConsole ..) rfl)
  unfold startConsole
  dsimp only
  split
  · exact claimed.trans (requestNotice_dutyMoves ..)
  · exact claimed

theorem startDuties_dutyMoves (s : State) : DutyMoves s (startDuties s) :=
  (whenPresent_dutyMoves startDrive_dutyMoves _ s).trans <| (whenPresent_dutyMoves (startArm_dutyMoves .a) _ _).trans <|
    (whenPresent_dutyMoves (startArm_dutyMoves .b) _ _).trans <| (whenPresent_dutyMoves startWater_dutyMoves _ _).trans <|
    whenPresent_dutyMoves startConsole_dutyMoves _ _

/-- The station in JOINING before its duties start: loader, link, tables and inputs taken (R201). -/
def joined (m : Image) (first : Vector Permille 4) (s : State) : State := joinInputs m first (joinTables m (joinLoader m s))

section
variable (m : Image) (first : Vector Permille 4) (s : State)

theorem enterJoining_eq : enterJoining m first s = startDuties (joined m first s) := rfl

theorem joined_station : (joined m first s).loader.station = .joining := rfl
theorem joined_address : (joined m first s).loader.address = s.loader.address := rfl
theorem joined_link : (joined m first s).link = openLink (bitRateOf (imgByte m 2)) s.link := rfl
theorem joined_picture : (joined m first s).picture = { s.picture with table := imgTable m } := rfl
theorem joined_pub : (joined m first s).pub = s.pub := rfl
theorem joined_duties : (joined m first s).duties = imgDuties m := rfl
theorem joined_params : (joined m first s).params = imgParams m := rfl
theorem joined_safe : (joined m first s).safe = { s.safe with hold := imgHold m } := rfl
theorem joined_drive : (joined m first s).drive = s.drive := rfl
theorem joined_arm (u : ArmUnit) : (joined m first s).arm u = s.arm u := by cases u <;> rfl
theorem joined_water : (joined m first s).water = s.water := rfl
theorem joined_console : (joined m first s).console = s.console := rfl
theorem joined_isSafe : isSafe (joined m first s) = isSafe s := rfl

theorem enterJoining_dutyMoves : DutyMoves (joined m first s) (enterJoining m first s) := startDuties_dutyMoves _

end

/-! ## What such sequences keep -/

theorem DutyMoves.frame (h : DutyMoves s t) : KeepsAllButDuties s t := by
  induction h with
  | refl => exact .refl s
  | tail _ step ih =>
    refine ih.trans ?_
    cases step with
    | keeps frame pub => exact frame
    | pub h => exact .ofPub h.frame

/-- A property that says nothing of the duties' blocks and that every part of the scheduler keeps. -/
theorem DutyMoves.keep {P : State → Prop} (congr : ∀ {s t}, KeepsAllButDuties s t → t.pub = s.pub → P s → P t)
    (pub : ∀ {s t}, P s → PubPart s t → P t) (h : DutyMoves s t) (hs : P s) : P t := by
  induction h with
  | refl => exact hs
  | tail _ step ih =>
    cases step with
    | keeps frame same => exact congr frame same ih
    | pub h => exact pub ih h

end

end Sys2Proof.Machine
end

section
/-! PROOFS. The link: what a frame's return and an abort's end make of it, and that every step keeps it consistent. -/

namespace Sys2Proof.Machine

section
variable {s t : State}

/-! ## A frame's return and an abort's end -/

/-- The link after a frame came back: nothing in hand (R38, R39). -/
theorem returnInHand_link (s : State) : (returnInHand s).link = { s.link with inHand := none } := by
  unfold returnInHand
  split
  · rw [(returnFrame_frame ..).link]; rfl
  · rename_i h; rw [← h]

theorem returnInHand_loader (s : State) : (returnInHand s).loader = s.loader := by
  unfold returnInHand
  split
  · rw [(returnFrame_frame ..).loader]; rfl
  · rfl

/-- The link in MUTE from an instant (R41). -/
def mutedLink (now : Nat) (l : Link) : Link := { l with state := .mute, muteDue := some (now + 500), muteFlag := true }

/-- The link once the tally is looked at: MUTE from 128 on (R41). -/
def checkedLink (now : Nat) (l : Link) : Link := if 128 ≤ l.tally then mutedLink now l else l

theorem checkTally_link (s : State) : (checkTally s).link = checkedLink (ms s) s.link := by
  unfold checkTally checkedLink
  split
  · exact (reportCause_frame .linkMute _).link
  · rfl

theorem checkTally_loader (s : State) : (checkTally s).loader = s.loader := by
  unfold checkTally
  split
  · exact (reportCause_frame .linkMute _).loader
  · rfl

theorem ms_returnInHand (s : State) : ms (returnInHand s) = ms s := by
  unfold returnInHand
  split
  · exact congrArg (· / 1000) (returnFrame_frame ..).micros
  · rfl

/-- The link when an abort has been settled, whichever of the MUTE entry and the frame's return came first (R39, R41). -/
theorem settleAbort_link (s : State) : (settleAbort s).link = { checkedLink (ms s) s.link with inHand := none } := by
  unfold settleAbort
  split
  · rw [returnInHand_link, checkTally_link]
  · rw [checkTally_link, returnInHand_link, ms_returnInHand]
    simp only [checkedLink, mutedLink]
    split <;> rfl

theorem settleAbort_loader (s : State) : (settleAbort s).loader = s.loader := by
  unfold settleAbort
  split
  · rw [returnInHand_loader, checkTally_loader]
  · rw [checkTally_loader, returnInHand_loader]

theorem holdFrame_fields (f : HeldFrame) (l : Link) : (holdFrame f l).state = l.state ∧ (holdFrame f l).receiver = l.receiver
    ∧ (holdFrame f l).transmitter = l.transmitter ∧ (holdFrame f l).inHand = l.inHand ∧ (holdFrame f l).tally = l.tally
    ∧ (holdFrame f l).muteDue = l.muteDue ∧ (holdFrame f l).abortDue = l.abortDue := by
  unfold holdFrame
  split <;> exact ⟨rfl, rfl, rfl, rfl, rfl, rfl, rfl⟩

/-- A frame received moves the receiver alone, beside the holding queue and the flags (R30, R33). -/
theorem receiveFrame_fields (f : CollectedFrame) (l : Link) : (receiveFrame f l).state = l.state
    ∧ (receiveFrame f l).receiver = .hunt ∧ (receiveFrame f l).transmitter = l.transmitter
    ∧ (receiveFrame f l).inHand = l.inHand ∧ (receiveFrame f l).tally = l.tally ∧ (receiveFrame f l).muteDue = l.muteDue
    ∧ (receiveFrame f l).abortDue = l.abortDue := by
  unfold receiveFrame
  dsimp only
  split
  · exact holdFrame_fields ⟨.others, f.header, f.seq, f.payload⟩ { l with receiver := .hunt }
  · exact ⟨rfl, rfl, rfl, rfl, rfl, rfl, rfl⟩

/-- What a station that may contend has: the link ON, the receiver WAITING, the transmitter QUIET, a list (R36). -/
theorem mayContend_iff : mayContend s = true ↔
    s.link.state = .on ∧ s.link.receiver = .waiting ∧ s.link.transmitter = .quiet ∧ s.pub.list ≠ [] := by
  simp [mayContend, and_assoc]

/-- The head of the list becomes the frame in hand (R36). -/
theorem beginContest_cons {e : TxEntry} {rest : List TxEntry} (h : s.pub.list = e :: rest) :
    beginContest s = (s.withPub { s.pub with list := rest }).withLink
      { s.link with inHand := some e, transmitter := .contend, receiver := .inFrame } := by
  unfold beginContest
  rw [h]

/-- A station enters JOINING with the link as it leaves CONFIGURING (R25, R45, R201). -/
theorem enterJoining_frame (m : Image) (first : Vector Permille 4) (s : State) :
    KeepsAllButDuties (joined m first s) (enterJoining m first s) :=
  (enterJoining_dutyMoves m first s).frame

/-! ## The invariant -/

/-- The link's consistency reads the link and the station state alone. -/
theorem LinkConsistent.congr (hs : LinkConsistent s) (link : t.link = s.link) (loader : t.loader = s.loader) :
    LinkConsistent t := by
  obtain ⟨tally, muted, timer, sending, quiet, aborting, configuring⟩ := hs
  exact ⟨link ▸ tally, link ▸ muted, link ▸ timer, link ▸ sending, link ▸ quiet, link ▸ aborting,
    link ▸ loader ▸ configuring⟩

theorem LinkConsistent.transmitter_quiet (hs : LinkConsistent s) (c : s.loader.station = .configuring) :
    s.link.transmitter = .quiet := by
  obtain ⟨-, -, transmitter, -⟩ := hs.configuring c
  exact transmitter

/-- Out of MUTE the tally is below the limit and the MUTE timer stands (R41, R42). -/
theorem LinkConsistent.unmuted (hs : LinkConsistent s) (h : s.link.state ≠ .mute) :
    s.link.tally < 128 ∧ s.link.muteDue = none :=
  ⟨Nat.lt_of_not_le fun k => h (hs.muted k), Option.not_isSome_iff_eq_none.1 fun k => h (hs.timer.2 k)⟩

theorem LinkConsistent.noAbort (hs : LinkConsistent s) (h : s.link.transmitter ≠ .abort) : s.link.abortDue = none :=
  Option.not_isSome_iff_eq_none.1 fun k => h (hs.aborting.2 k)

/-- A station that sends anything has its link ON, below the MUTE limit, and is out of CONFIGURING (R36, R41, R45). -/
theorem LinkConsistent.working (hs : LinkConsistent s) (h : s.link.transmitter ≠ .quiet) :
    s.link.state = .on ∧ s.link.tally < 128 ∧ s.link.muteDue = none ∧ s.loader.station ≠ .configuring := by
  obtain ⟨on, -⟩ := hs.sending h
  obtain ⟨tally, timer⟩ := hs.unmuted (by rw [on]; decide)
  exact ⟨on, tally, timer, fun c => h (hs.transmitter_quiet c)⟩

/-- A link that keeps all but its receiver stays consistent, on a station out of CONFIGURING or with the receiver in HUNT. -/
theorem LinkConsistent.receives (hs : LinkConsistent s) {l : Link} (state : l.state = s.link.state)
    (transmitter : l.transmitter = s.link.transmitter) (inHand : l.inHand = s.link.inHand) (tally : l.tally = s.link.tally)
    (muteDue : l.muteDue = s.link.muteDue) (abortDue : l.abortDue = s.link.abortDue)
    (receiver : l.receiver = .hunt ∨ s.loader.station ≠ .configuring) : LinkConsistent (s.withLink l) := by
  obtain ⟨tallyBound, muted, timer, sending, quiet, aborting, configuring⟩ := hs
  constructor <;> simp only [State.withLink_link, State.withLink_loader, state, transmitter, inHand, tally, muteDue, abortDue]
  case configuring =>
    intro c
    obtain ⟨hunt, -, still, zero⟩ := configuring c
    exact ⟨hunt, receiver.resolve_right (fun n => n c), still, zero⟩
  all_goals assumption

/-- A link with nothing to send, out of MUTE, is consistent whatever its receiver does (R35, R36). -/
theorem LinkConsistent.ofQuiet {l : Link} (tally : l.tally < 128) (state : l.state ≠ .mute) (muteDue : l.muteDue = none)
    (transmitter : l.transmitter = .quiet) (inHand : l.inHand = none) (abortDue : l.abortDue = none)
    (out : s.loader.station ≠ .configuring) : LinkConsistent (s.withLink l) where
  tally := by simp only [State.withLink_link]; omega
  muted := by simp only [State.withLink_link]; omega
  timer := by simp [state, muteDue]
  sending := by simp [transmitter]
  quiet := by simp [inHand]
  aborting := by simp [transmitter, abortDue]
  configuring c := absurd c out

theorem LinkConsistent.startPart (hs : LinkConsistent s) (h : StartPart s t) : LinkConsistent t := by
  have opened (c : s.loader.station = .configuring) {q : State} (rate : Option BitRate)
      (link : q.link = openLink rate s.link) (out : q.loader.station ≠ .configuring) : LinkConsistent q := by
    obtain ⟨hunt, -, quiet, zero⟩ := hs.configuring c
    have k : LinkConsistent (q.withLink (openLink rate s.link)) :=
      .ofQuiet (by simp [openLink, zero]) (by simp [openLink]) (hs.unmuted (by rw [hunt]; decide)).2 rfl rfl
        (hs.noAbort (by rw [quiet]; decide)) out
    exact k.congr link rfl
  cases h with
  | readAgain c =>
    obtain ⟨tally, muted, timer, sending, quiet, aborting, configuring⟩ := hs
    exact ⟨tally, muted, timer, sending, quiet, aborting, configuring⟩
  | imageFailed code c => exact opened c (some .k250) rfl (by simp [failImage])
  | imageAccepted m first c =>
    have frame := enterJoining_frame m first s
    exact opened c _ (frame.link.trans (joined_link ..)) (by rw [frame.loader, joined_station]; decide)
  | opened j =>
    obtain ⟨tally, muted, timer, sending, quiet, aborting, configuring⟩ := hs
    exact ⟨tally, muted, timer, sending, quiet, aborting, fun c => nomatch c⟩

theorem LinkConsistent.linkPart (hs : LinkConsistent s) (h : LinkPart s t) : LinkConsistent t := by
  cases h with
  | idle out =>
    by_cases hunt : s.link.state = .hunt
    · have still : s.link.transmitter = .quiet := by
        refine Classical.byContradiction fun works => ?_
        obtain ⟨on, -⟩ := hs.working works
        rw [hunt] at on; cases on
      obtain ⟨tally, timer⟩ := hs.unmuted (by rw [hunt]; decide)
      exact .ofQuiet tally (by simp [seeIdle, hunt]) timer still (hs.quiet still) (hs.noAbort (by rw [still]; decide)) out
    · exact hs.receives (by simp [seeIdle, hunt]) rfl rfl rfl rfl rfl (.inr out)
  | framing => exact hs.receives rfl rfl rfl rfl rfl rfl (.inl rfl)
  | received f whole =>
    obtain ⟨state, receiver, transmitter, inHand, tally, muteDue, abortDue⟩ := receiveFrame_fields f s.link
    exact hs.receives state transmitter inHand tally muteDue abortDue (.inl receiver)
  | contends may =>
    obtain ⟨on, -, still, listed⟩ := mayContend_iff.1 may
    obtain ⟨e, rest, list⟩ := List.exists_cons_of_ne_nil listed
    obtain ⟨tally, timer⟩ := hs.unmuted (by rw [on]; decide)
    have out : s.loader.station ≠ .configuring := fun c => by
      obtain ⟨hunt, -⟩ := hs.configuring c
      rw [on] at hunt; cases hunt
    rw [beginContest_cons list]
    exact ⟨by simp; omega, by simp; omega, by simp [on, timer], by simp [on], by simp,
      by simp [hs.noAbort (by rw [still]; decide)], fun c => absurd c out⟩
  | begins waiting =>
    refine hs.receives rfl rfl rfl rfl rfl rfl (.inr fun c => ?_)
    obtain ⟨-, hunt, -⟩ := hs.configuring c
    rw [waiting] at hunt; cases hunt
  | won contends =>
    obtain ⟨on, tally, timer, out⟩ := hs.working (by rw [contends]; decide)
    obtain ⟨-, hand⟩ := hs.sending (by rw [contends]; decide)
    exact ⟨by simp [onLink]; omega, by simp [onLink]; omega, by simp [onLink, on, timer], by simp [onLink, on, hand],
      by simp [onLink], by simp [onLink, hs.noAbort (by rw [contends]; decide)], fun c => absurd c out⟩
  | lost contends =>
    obtain ⟨on, tally, timer, out⟩ := hs.working (by rw [contends]; decide)
    have k : LinkConsistent (s.withLink { s.link with transmitter := .quiet, inHand := none }) :=
      .ofQuiet tally (by simp [on]) timer rfl rfl (hs.noAbort (by rw [contends]; decide)) out
    exact k.congr (returnInHand_link _) (returnInHand_loader _)
  | faulted due sends =>
    have works : s.link.transmitter ≠ .quiet := by rcases sends with h | h <;> rw [h] <;> decide
    obtain ⟨on, tally, timer, out⟩ := hs.working works
    obtain ⟨-, hand⟩ := hs.sending works
    exact ⟨by simp [onLink]; omega, by simp [onLink]; omega, by simp [onLink, on, timer], by simp [onLink, on, hand],
      by simp [onLink], by simp [onLink], fun c => absurd c out⟩
  | aborted aborts =>
    obtain ⟨on, tally, timer, out⟩ := hs.working (by rw [aborts]; decide)
    have k : LinkConsistent (s.withLink { checkedLink (ms s) (quietAbort s.link) with inHand := none }) := by
      unfold checkedLink
      split
      · rename_i limit
        exact ⟨by simp [mutedLink, quietAbort]; omega, by simp [mutedLink], by simp [mutedLink],
          by simp [mutedLink, quietAbort], by simp, by simp [mutedLink, quietAbort], fun c => absurd c out⟩
      · rename_i below
        exact .ofQuiet (by simpa using below) (by simp [quietAbort, on]) timer rfl rfl rfl out
    exact k.congr (settleAbort_link _) (settleAbort_loader _)
  | unmuted mute =>
    have still : s.link.transmitter = .quiet := by
      refine Classical.byContradiction fun works => ?_
      obtain ⟨on, -⟩ := hs.working works
      rw [mute] at on; cases on
    have out : s.loader.station ≠ .configuring := fun c => by
      obtain ⟨hunt, -⟩ := hs.configuring c
      rw [mute] at hunt; cases hunt
    exact .ofQuiet (by simp [leaveMute]) (by simp [leaveMute]) rfl still (hs.quiet still)
      (hs.noAbort (by rw [still]; decide)) out
  | sent e sends hand =>
    obtain ⟨on, tally, timer, out⟩ := hs.working (by rw [sends]; decide)
    obtain ⟨fstate, -, ftransmitter, finHand, ftally, fmuteDue, fabortDue⟩ := holdFrame_fields ⟨.self, e.header, e.seq, e.payload⟩
      { s.link with tally := s.link.tally - 1, transmitter := .quiet, receiver := .hunt, inHand := none }
    refine .ofQuiet ?_ ?_ (fmuteDue.trans timer) ftransmitter finHand (fabortDue.trans (hs.noAbort (by rw [sends]; decide))) out
    · unfold sendDone; rw [ftally]; dsimp only; omega
    · unfold sendDone; rw [fstate, on]; decide
  | headDropped store =>
    obtain ⟨tally, muted, timer, sending, quiet, aborting, configuring⟩ := hs
    exact ⟨tally, muted, timer, sending, quiet, aborting, configuring⟩

theorem LinkConsistent.part (hs : LinkConsistent s) (h : Part s t) : LinkConsistent t := by
  cases h with
  | passes => exact hs.congr rfl rfl
  | start h => exact hs.startPart h
  | pub h => exact hs.congr h.frame.link h.frame.loader
  | link h => exact hs.linkPart h
  | picture h => rw [h.eq]; exact hs.congr rfl rfl
  | arm u h => exact hs.congr h.frame.link h.frame.loader
  | duty h => exact hs.congr h.frame.link h.frame.loader
  | inputs i => exact hs.congr rfl rfl
  | caused c => exact hs.congr (reportCause_frame c s).link (reportCause_frame c s).loader
  | released h => exact hs.congr (clearCauses_frame s).link (clearCauses_frame s).loader
  | flagsCleared =>
    obtain ⟨tally, muted, timer, sending, quiet, aborting, configuring⟩ := hs
    exact ⟨tally, muted, timer, sending, quiet, aborting, configuring⟩

theorem LinkConsistent.atReset (held : Bool) (address : BitVec 4) : LinkConsistent (State.atReset held address) := by
  constructor <;> simp [State.atReset, State.resetLink]

end

/-- Settles O54: reset gives a link at rest, and every part of a command keeps the link consistent. -/
theorem linkStaysConsistent : Obligations.LinkStaysConsistent := fun _ _ hs h =>
  step_keeps LinkConsistent.atReset (fun _ k => k.congr rfl rfl) LinkConsistent.part hs h

end Sys2Proof.Machine
end

section
/-! PROOFS. The transmit list and the deferred events: what a part of the scheduler makes of them, and that every step keeps them as
spec/03, 3.3 has them. -/

namespace Sys2Proof.Machine

/-! ## Displacement (R58, R59) -/

section
variable {l before after : List TxEntry} {x e : TxEntry}

/-- The event that gives way to a HALT is the one the model's search finds (R58). -/
theorem highestEvent_of_givesWay (h : GivesWay before x after) :
    highestEvent (before ++ x :: after) = some (before.length, x) := by
  obtain ⟨event, other, upto, below⟩ := h
  induction before with
  | nil =>
    unfold highestEvent
    cases high : highestEvent after with
    | none => simp [high, isEvent, event]
    | some iy =>
      obtain ⟨at_i, isev, -⟩ := highestEvent_some high
      have lower := below iy.2 (List.mem_of_getElem? at_i) (eq_of_beq isev)
      simp [high, isEvent, event, lower]
  | cons a rest ih =>
    have highest := ih fun y hy => upto y (List.mem_cons_of_mem _ hy)
    have not_above : (isEvent a && decide (x.header.toNat < a.header.toNat)) = false := by
      refine Classical.byContradiction fun k => ?_
      obtain ⟨ea, lt⟩ := Bool.and_eq_true_iff.1 (Bool.not_eq_false _ ▸ k)
      exact Nat.not_lt.2 (upto a List.mem_cons_self (eq_of_beq ea)) (of_decide_eq_true lt)
    rw [List.cons_append, highestEvent, highest]
    simp only [not_above, Bool.false_eq_true, if_false, List.length_cons]

/-- At full places a HALT displaces the event that gives way (R58, R59). -/
theorem offerFull_of_givesWay (halt : isHalt e = true) (h : GivesWay before x after) :
    offerFull e (before ++ x :: after) = (before ++ after, headerTopic x.header, true) := by
  have other : isHalt x = false := by
    obtain ⟨-, other, -⟩ := h
    simpa [isHalt] using other
  simp [offerFull, highestEvent_of_givesWay h, halt, other, List.eraseIdx_append_of_length_le]

/-- At places full of HALTs a HALT is itself discarded (R58, R59). -/
theorem offerFull_of_onlyHalts (h : OnlyHalts l) : offerFull e l = (l, headerTopic e.header, false) := by
  unfold offerFull
  split
  · rename_i i x high
    obtain ⟨at_i, event, -⟩ := highestEvent_some high
    have halt : isHalt x = true := beq_iff_eq.2 (h x (List.mem_of_getElem? at_i) (eq_of_beq event))
    simp [halt]
  · rfl

/-- At full places the list stays as it is, or loses one event to the newcomer (R58, R59). -/
theorem offerFull_cases (e : TxEntry) (l : List TxEntry) :
    (∃ topic, offerFull e l = (l, topic, false))
    ∨ ∃ before x after topic, l = before ++ x :: after ∧ x.kind = .event ∧ offerFull e l = (before ++ after, topic, true) := by
  unfold offerFull
  split
  · rename_i i x high
    obtain ⟨at_i, event, -⟩ := highestEvent_some high
    obtain ⟨lt, rfl⟩ := List.getElem?_eq_some_iff.1 at_i
    split
    · refine .inr ⟨l.take i, l[i], l.drop (i + 1), _, ?_, eq_of_beq event, by rw [List.eraseIdx_eq_take_drop_succ]⟩
      rw [← List.drop_eq_getElem_cons lt, List.take_append_drop]
    · exact .inl ⟨_, rfl⟩
  · exact .inl ⟨_, rfl⟩

end

/-! ## What a part of the scheduler makes of the lists -/

/-- What becomes of the transmit list and of the deferred events: they stay, a cyclic frame is built, an event joins, or an event
joins in the place of another (R53, R54, R58, R59, R60). -/
inductive ListMove (s : State) : List TxEntry → List TxEntry → Prop where
  | kept : ListMove s s.pub.list s.pub.deferred
  | rebuilt (v : CyclicTopic) : ListMove s
      (s.pub.list.map fun x => if isPendingCyclic (cyclicEntry s v).header x then cyclicEntry s v else x) s.pub.deferred
  | listed (v : CyclicTopic) (o : s.loader.station = .operating) (p : publishes s.duties v = true)
      (fresh : ¬PendingCyclic (cyclicEntry s v).header s.pub.list) :
      ListMove s (insertNew (cyclicEntry s v) s.pub.list) s.pub.deferred
  | joins (topic : Topic) (payload : List Byte) (len : payload.length = topicLength topic) (free : placesTaken s < 4)
      (o : s.loader.station = .operating ∨ s.loader.station = .configFault ∧ topic = .notice) :
      ListMove s (insertNew (eventEntry s topic payload) s.pub.list) s.pub.deferred
  | displaces (topic : Topic) (payload : List Byte) (len : payload.length = topicLength topic)
      (o : s.loader.station = .operating) (before : List TxEntry) (x : TxEntry) (after : List TxEntry)
      (h : s.pub.list = before ++ x :: after) (event : x.kind = .event) :
      ListMove s (insertNew (eventEntry s topic payload) (before ++ after)) s.pub.deferred
  | waits (topic : Topic) (payload : List Byte) (len : payload.length = topicLength topic)
      (free : s.pub.deferred.length < 4) : ListMove s s.pub.list (s.pub.deferred ++ [eventEntry s topic payload])
  | waitsFor (topic : Topic) (payload : List Byte) (len : payload.length = topicLength topic)
      (before : List TxEntry) (x : TxEntry) (after : List TxEntry) (h : s.pub.deferred = before ++ x :: after) :
      ListMove s s.pub.list (before ++ after ++ [eventEntry s topic payload])

section
variable {s t : State}

theorem enqueueEvent_lists {topic : Topic} {payload : List Byte} (len : payload.length = topicLength topic)
    (o : s.loader.station = .operating) : ListMove s
      (enqueueEvent (eventEntry s topic payload) (s.withPub (advanceSeq s.pub topic))).pub.list
      (enqueueEvent (eventEntry s topic payload) (s.withPub (advanceSeq s.pub topic))).pub.deferred := by
  unfold enqueueEvent
  by_cases free : placesTaken (s.withPub (advanceSeq s.pub topic)) < 4
  · rw [if_pos free]
    exact .joins topic payload len free (.inl o)
  · rw [if_neg free]
    rcases offerFull_cases (eventEntry s topic payload) s.pub.list with ⟨_, h⟩ | ⟨before, x, after, _, split, event, h⟩
    · simp only [State.withPub_pub, advanceSeq, h]
      exact .kept
    · simp only [State.withPub_pub, advanceSeq, h]
      exact .displaces topic payload len o before x after split event

theorem deferEvent_lists {topic : Topic} {payload : List Byte} (len : payload.length = topicLength topic) : ListMove s
      (deferEvent (eventEntry s topic payload) (s.withPub (advanceSeq s.pub topic))).pub.list
      (deferEvent (eventEntry s topic payload) (s.withPub (advanceSeq s.pub topic))).pub.deferred := by
  unfold deferEvent
  by_cases free : (s.withPub (advanceSeq s.pub topic)).pub.deferred.length < 4
  · rw [if_pos free]
    exact .waits topic payload len free
  · rw [if_neg free]
    rcases offerFull_cases (eventEntry s topic payload) s.pub.deferred with ⟨_, h⟩ | ⟨before, x, after, _, split, -, h⟩
    · simp only [State.withPub_pub, advanceSeq, h]
      exact .kept
    · simp only [State.withPub_pub, advanceSeq, h]
      exact .waitsFor topic payload len before x after split

theorem requestEvent_lists {topic : Topic} {payload : List Byte} (len : payload.length = topicLength topic) :
    ListMove s (requestEvent topic payload s).pub.list (requestEvent topic payload s).pub.deferred := by
  unfold requestEvent
  cases station : s.loader.station with
  | operating => exact enqueueEvent_lists len station
  | joining => exact deferEvent_lists len
  | configuring => exact .kept
  | configFault => exact .kept

theorem publishCyclic_lists {v : CyclicTopic} (o : s.loader.station = .operating) (p : publishes s.duties v = true) :
    ListMove s (publishCyclic v s).pub.list (publishCyclic v s).pub.deferred := by
  unfold publishCyclic
  dsimp only
  by_cases pending : s.pub.list.any (isPendingCyclic (cyclicEntry s v).header) = true
  · simp only [pending, State.withPub_pub, if_true]
    exact .rebuilt v
  · simp only [pending, State.withPub_pub]
    exact .listed v o p (mt anyPending_iff.2 pending)

theorem PubPart.lists (h : PubPart s t) : ListMove s t.pub.list t.pub.deferred := by
  cases h with
  | published v start o p => exact publishCyclic_lists o p
  | asked topic payload len => exact requestEvent_lists len
  | configBadTimer next => exact .kept
  | configBad c =>
    unfold requestConfigBad
    dsimp only
    split
    · rename_i free
      exact .joins .notice _ rfl free (.inr ⟨c, rfl⟩)
    · exact .kept
  | dropped =>
    unfold reportDropped
    split
    · rename_i h
      simp only [Bool.and_eq_true, decide_eq_true_eq] at h
      obtain ⟨⟨o, -⟩, free⟩ := h
      exact .joins .notice _ rfl free (.inl (operating_iff.1 o))
    · exact .kept
  | owed b => exact .kept

/-! ## Entries -/

/-- An entry of either list stood there before, or was built by this station with a payload as long as its header declares. -/
theorem ListMove.declares {l d : List TxEntry} (h : ListMove s l d)
    (list : ∀ e ∈ s.pub.list, declaresLength e.header e.payload)
    (deferred : ∀ e ∈ s.pub.deferred, declaresLength e.header e.payload) :
    (∀ e ∈ l, declaresLength e.header e.payload) ∧ ∀ e ∈ d, declaresLength e.header e.payload := by
  have built {topic : Topic} {payload : List Byte} (len : payload.length = topicLength topic) :
      declaresLength (eventEntry s topic payload).header (eventEntry s topic payload).payload :=
    len.trans (headerLength_topicHeader topic s.loader.address).symm
  have cyclic (v : CyclicTopic) : declaresLength (cyclicEntry s v).header (cyclicEntry s v).payload :=
    (cyclicRecord_length s v).trans (headerLength_topicHeader _ s.loader.address).symm
  cases h with
  | kept => exact ⟨list, deferred⟩
  | rebuilt v =>
    refine ⟨fun e he => ?_, deferred⟩
    obtain ⟨x, hx, rfl⟩ := List.mem_map.1 he
    split
    · exact cyclic v
    · exact list x hx
  | listed v o p fresh =>
    refine ⟨fun e he => ?_, deferred⟩
    rcases mem_insertNew.1 he with rfl | he
    · exact cyclic v
    · exact list e he
  | joins topic payload len free o =>
    refine ⟨fun e he => ?_, deferred⟩
    rcases mem_insertNew.1 he with rfl | he
    · exact built len
    · exact list e he
  | displaces topic payload len o before x after split event =>
    refine ⟨fun e he => ?_, deferred⟩
    rcases mem_insertNew.1 he with rfl | he
    · exact built len
    · refine list e ?_
      rw [split]
      rcases List.mem_append.1 he with he | he
      · exact List.mem_append_left _ he
      · exact List.mem_append_right _ (List.mem_cons_of_mem _ he)
  | waits topic payload len free =>
    refine ⟨list, fun e he => ?_⟩
    rcases List.mem_append.1 he with he | he
    · exact deferred e he
    · rw [List.mem_singleton.1 he]; exact built len
  | waitsFor topic payload len before x after split =>
    refine ⟨list, fun e he => ?_⟩
    rcases List.mem_append.1 he with he | he
    · refine deferred e ?_
      rw [split]
      rcases List.mem_append.1 he with he | he
      · exact List.mem_append_left _ he
      · exact List.mem_append_right _ (List.mem_cons_of_mem _ he)
    · rw [List.mem_singleton.1 he]; exact built len

/-- The deferred events keep their four places (R59). -/
theorem ListMove.deferred_length {l d : List TxEntry} (h : ListMove s l d) (bound : s.pub.deferred.length ≤ 4) :
    d.length ≤ 4 := by
  cases h with
  | waits topic payload len free => rw [List.length_append, List.length_singleton]; omega
  | waitsFor topic payload len before x after split =>
    rw [split, List.length_append, List.length_cons] at bound
    simp only [List.length_append, List.length_singleton]
    omega
  | kept | rebuilt | listed | joins | displaces => exact bound

end

end Sys2Proof.Machine
end

section
/-! PROOFS. The start of the duties at the entry to JOINING (R201): what each duty's block is, and that a duty the station does not
carry stays as it was. -/

namespace Sys2Proof.Machine

section
variable {s t : State} {u v : ArmUnit}

/-- An arm unit at its start (R124): the stow check's state and cause, its lines at the hold set, its claim. -/
def startedArm (s : State) (u : ArmUnit) : Arm :=
  let placed : Arm := { State.resetArm with
    state := (stowCheck s u).1
    cause := (stowCheck s u).2
    levels := holdLevels s.safe.hold (armParams s u)
    deflectOff := some (ms s)
    due := some (ms s + 20) }
  { placed with claim := some (formClaim s (armOwnClaim (armParams s u) placed)) }

/-- The water duty at its start (R154, R155, R169). -/
def startedWater (s : State) : Water :=
  let w := updateTank s.params.water { State.resetWater with tank := tankValue s.inputs, due := some (ms s + 20) }
  { w with claim := some (formClaim s (waterOwnClaim s.params.water w)) }

/-- The console at its start (R179). -/
def startedConsole (s : State) : Console :=
  { State.resetConsole with due := some (ms s + 20), claim := some (formClaim s freeClaim) }

theorem startArm_frame (u : ArmUnit) (s : State) : KeepsAllButPub (s.withArm u (startedArm s u)) (startArm u s) := by
  have claimed : setArmClaim u (s.withArm u { State.resetArm with
      state := (stowCheck s u).1
      cause := (stowCheck s u).2
      levels := holdLevels s.safe.hold (armParams s u)
      deflectOff := some (ms s)
      due := some (ms s + 20) }) = s.withArm u (startedArm s u) := by
    simp [setArmClaim, startedArm, formClaim]
  unfold startArm
  dsimp only
  rw [claimed]
  split
  · exact requestNotice_frame ..
  · exact .refl _

theorem startWater_frame (s : State) : KeepsAllButPub (s.withWater (startedWater s)) (startWater s) := noticeTank_frame false _

theorem startConsole_frame (s : State) : KeepsAllButPub (s.withConsole (startedConsole s)) (startConsole s) := by
  unfold startConsole
  dsimp only
  split
  · exact pedalNotice_frame ..
  · exact .refl _

/-- What a start reads of a station: the clock, the image's values, the inputs and Safe Control. -/
structure SameReadings (s t : State) : Prop where
  micros : t.micros = s.micros
  params : t.params = s.params
  inputs : t.inputs = s.inputs
  safe : t.safe = s.safe

theorem SameReadings.startedArm_eq (h : SameReadings s t) (u : ArmUnit) : startedArm t u = startedArm s u := by
  cases s; cases t
  obtain ⟨rfl, rfl, rfl, rfl⟩ := h
  cases u <;> rfl

theorem SameReadings.startedWater_eq (h : SameReadings s t) : startedWater t = startedWater s := by
  cases s; cases t
  obtain ⟨rfl, rfl, rfl, rfl⟩ := h
  rfl

theorem SameReadings.startedConsole_eq (h : SameReadings s t) : startedConsole t = startedConsole s := by
  cases s; cases t
  obtain ⟨rfl, rfl, rfl, rfl⟩ := h
  rfl

/-- A start where its duty is present leaves of a block what the start leaves. -/
theorem whenPresent_eq_ite {α : Type} (g : State → α) (f : State → State) (present : Bool) (s : State) :
    g (whenPresent present f s) = if present = true then g (f s) else g s := by
  cases present <;> rfl

/-- What the starts of the duties leave alone, said of any reading of a state. -/
theorem startDuties_keeps {α : Type} (g : State → α) (pub : ∀ {s t : State}, KeepsAllButPub s t → g t = g s)
    (d : ∀ s x, g (State.withDrive s x) = g s) (a : ∀ s u x, g (State.withArm s u x) = g s)
    (w : ∀ s x, g (State.withWater s x) = g s) (c : ∀ s x, g (State.withConsole s x) = g s) (s : State) :
    g (startDuties s) = g s :=
  (whenPresent_keeps g (fun q => (pub (startConsole_frame q)).trans (c ..)) _ _).trans <|
    (whenPresent_keeps g (fun q => (pub (startWater_frame q)).trans (w ..)) _ _).trans <|
    (whenPresent_keeps g (fun q => (pub (startArm_frame .b q)).trans (a ..)) _ _).trans <|
    (whenPresent_keeps g (fun q => (pub (startArm_frame .a q)).trans (a ..)) _ _).trans
      (whenPresent_keeps g (fun _ => (d ..).trans (d ..)) _ _)

theorem startDuties_safe (s : State) : (startDuties s).safe = s.safe :=
  startDuties_keeps State.safe (fun h => h.safe) (fun _ _ => rfl) (fun _ _ _ => State.withArm_safe ..) (fun _ _ => rfl)
    (fun _ _ => rfl) s

/-- The stations that the starts of the arms, of the water duty and of the console read, whatever was started before. -/
theorem sameReadings_drive (s : State) : SameReadings s (whenPresent s.duties.drive startDrive s) := by
  cases s.duties.drive <;> exact ⟨rfl, rfl, rfl, rfl⟩

theorem SameReadings.arm (h : SameReadings s t) (u : ArmUnit) (present : Bool) :
    SameReadings s (whenPresent present (startArm u) t) := by
  have frame := startArm_frame u t
  cases present
  · exact h
  · exact ⟨(frame.micros.trans (State.withArm_micros ..)).trans h.micros,
      (frame.params.trans (State.withArm_params ..)).trans h.params,
      (frame.inputs.trans (State.withArm_inputs ..)).trans h.inputs,
      (frame.safe.trans (State.withArm_safe ..)).trans h.safe⟩

theorem SameReadings.water (h : SameReadings s t) (present : Bool) : SameReadings s (whenPresent present startWater t) := by
  have frame := startWater_frame t
  cases present
  · exact h
  · exact ⟨frame.micros.trans h.micros, frame.params.trans h.params, frame.inputs.trans h.inputs, frame.safe.trans h.safe⟩

/-! ## Each duty's block -/

theorem startDuties_drive (s : State) :
    (startDuties s).drive = if s.duties.drive = true then (startDrive s).drive else s.drive :=
  (whenPresent_keeps State.drive (fun q => (startConsole_frame q).drive) _ _).trans <|
    (whenPresent_keeps State.drive (fun q => (startWater_frame q).drive) _ _).trans <|
    (whenPresent_keeps State.drive (fun q => (startArm_frame .b q).drive.trans (State.withArm_drive ..)) _ _).trans <|
    (whenPresent_keeps State.drive (fun q => (startArm_frame .a q).drive.trans (State.withArm_drive ..)) _ _).trans <|
    whenPresent_eq_ite ..

theorem startDuties_armA (s : State) :
    (startDuties s).armA = if s.duties.armA = true then startedArm s .a else s.armA := by
  have others : (startDuties s).armA
      = (whenPresent s.duties.armA (startArm .a) (whenPresent s.duties.drive startDrive s)).armA :=
    (whenPresent_keeps State.armA (fun q => (startConsole_frame q).armA) _ _).trans <|
      (whenPresent_keeps State.armA (fun q => (startWater_frame q).armA) _ _).trans <|
      whenPresent_keeps State.armA (fun q => (startArm_frame .b q).armA) _ _
  have kept : (whenPresent s.duties.drive startDrive s).armA = s.armA := whenPresent_keeps State.armA (f := startDrive) (fun _ => rfl) _ s
  rw [others, whenPresent_eq_ite State.armA, (startArm_frame .a _).armA, kept, ← (sameReadings_drive s).startedArm_eq]
  rfl

theorem startDuties_armB (s : State) :
    (startDuties s).armB = if s.duties.armB = true then startedArm s .b else s.armB := by
  have others : (startDuties s).armB = (whenPresent s.duties.armB (startArm .b)
      (whenPresent s.duties.armA (startArm .a) (whenPresent s.duties.drive startDrive s))).armB :=
    (whenPresent_keeps State.armB (fun q => (startConsole_frame q).armB) _ _).trans <|
      whenPresent_keeps State.armB (fun q => (startWater_frame q).armB) _ _
  have kept : (whenPresent s.duties.armA (startArm .a) (whenPresent s.duties.drive startDrive s)).armB = s.armB :=
    (whenPresent_keeps State.armB (fun q => (startArm_frame .a q).armB) _ _).trans
      (whenPresent_keeps State.armB (f := startDrive) (fun _ => rfl) _ s)
  rw [others, whenPresent_eq_ite State.armB, (startArm_frame .b _).armB, kept,
    ← ((sameReadings_drive s).arm .a s.duties.armA).startedArm_eq]
  rfl

/-- An arm unit the station carries has its start; another stays as it was (R124, R201). -/
theorem startDuties_arm (u : ArmUnit) (s : State) :
    (startDuties s).arm u = if armPresent s u = true then startedArm s u else s.arm u := by
  cases u
  · exact startDuties_armA s
  · exact startDuties_armB s

theorem startDuties_water (s : State) :
    (startDuties s).water = if s.duties.water = true then startedWater s else s.water := by
  have others : (startDuties s).water = (whenPresent s.duties.water startWater (whenPresent s.duties.armB (startArm .b)
      (whenPresent s.duties.armA (startArm .a) (whenPresent s.duties.drive startDrive s)))).water :=
    whenPresent_keeps State.water (fun q => (startConsole_frame q).water) _ _
  have kept : (whenPresent s.duties.armB (startArm .b)
      (whenPresent s.duties.armA (startArm .a) (whenPresent s.duties.drive startDrive s))).water = s.water :=
    (whenPresent_keeps State.water (fun q => (startArm_frame .b q).water) _ _).trans <|
      (whenPresent_keeps State.water (fun q => (startArm_frame .a q).water) _ _).trans <|
      whenPresent_keeps State.water (f := startDrive) (fun _ => rfl) _ s
  rw [others, whenPresent_eq_ite State.water, (startWater_frame _).water, kept,
    ← (((sameReadings_drive s).arm .a s.duties.armA).arm .b s.duties.armB).startedWater_eq]
  rfl

theorem startDuties_console (s : State) :
    (startDuties s).console = if s.duties.console = true then startedConsole s else s.console := by
  have kept : (whenPresent s.duties.water startWater (whenPresent s.duties.armB (startArm .b)
      (whenPresent s.duties.armA (startArm .a) (whenPresent s.duties.drive startDrive s)))).console = s.console :=
    (whenPresent_keeps State.console (fun q => (startWater_frame q).console) _ _).trans <|
      (whenPresent_keeps State.console (fun q => (startArm_frame .b q).console) _ _).trans <|
      (whenPresent_keeps State.console (fun q => (startArm_frame .a q).console) _ _).trans <|
      whenPresent_keeps State.console (f := startDrive) (fun _ => rfl) _ s
  refine (whenPresent_eq_ite State.console ..).trans ?_
  rw [(startConsole_frame _).console, kept,
    ← ((((sameReadings_drive s).arm .a s.duties.armA).arm .b s.duties.armB).water s.duties.water).startedConsole_eq]
  rfl

end

end Sys2Proof.Machine
end

section
/-! PROOFS. Frames, queues, absent duties and the transmit list: every part of a command keeps them as the spec has them. -/

namespace Sys2Proof.Machine

section
variable {s t : State}

/-! ## A frame's return (R57) -/

/-- A frame that comes back changes the transmit list alone: it stays, or the frame joins it. -/
theorem returnFrame_list (e : TxEntry) (s : State) : (returnFrame e s).pub.deferred = s.pub.deferred
    ∧ ((returnFrame e s).pub.list = s.pub.list ∧ e.kind = .cyclic
      ∨ (returnFrame e s).pub.list = insertNew e s.pub.list ∧ e.kind = .cyclic ∧ ¬PendingCyclic e.header s.pub.list
      ∨ (returnFrame e s).pub.list = insertReturned e s.pub.list ∧ e.kind = .event) := by
  unfold returnFrame
  split
  · rename_i cyclic
    split
    · exact ⟨rfl, .inl ⟨rfl, cyclic⟩⟩
    · rename_i fresh
      exact ⟨rfl, .inr (.inl ⟨rfl, cyclic, mt anyPending_iff.2 fresh⟩)⟩
  · rename_i event
    exact ⟨rfl, .inr (.inr ⟨rfl, event⟩)⟩

theorem mem_returnFrame {e x : TxEntry} (h : x ∈ (returnFrame e s).pub.list) : x = e ∨ x ∈ s.pub.list := by
  rcases (returnFrame_list e s).2 with ⟨k, -⟩ | ⟨k, -⟩ | ⟨k, -⟩ <;> rw [k] at h
  · exact .inr h
  · exact mem_insertNew.1 h
  · exact mem_insertReturned.1 h

/-- A frame in hand comes back to the scheduler; with none in hand nothing does (R38, R39). -/
theorem returnInHand_cases (s : State) : (s.link.inHand = none ∧ returnInHand s = s)
    ∨ ∃ e, s.link.inHand = some e ∧ returnInHand s = returnFrame e (s.withLink { s.link with inHand := none }) := by
  unfold returnInHand
  split
  · rename_i e h; exact .inr ⟨e, h, rfl⟩
  · rename_i h; exact .inl ⟨h, rfl⟩

/-! ## Frames (R12, R17, R27, R32) -/

theorem FramesWhole.congr (hs : FramesWhole s) (link : t.link = s.link) (picture : t.picture = s.picture)
    (pub : t.pub = s.pub) : FramesWhole t := by
  obtain ⟨holding, events, list, deferred, inHand, slots⟩ := hs
  exact ⟨link ▸ holding, picture ▸ events, pub ▸ list, pub ▸ deferred, link ▸ inHand, picture ▸ slots⟩

theorem FramesWhole.pubPart (hs : FramesWhole s) (h : PubPart s t) : FramesWhole t := by
  obtain ⟨list, deferred⟩ := h.lists.declares hs.list hs.deferred
  exact ⟨h.frame.link ▸ hs.holding, h.frame.picture ▸ hs.events, list, deferred, h.frame.link ▸ hs.inHand,
    h.frame.picture ▸ hs.slots⟩

theorem FramesWhole.dutyMoves (hs : FramesWhole s) (h : DutyMoves s t) : FramesWhole t :=
  h.keep (fun frame pub k => k.congr frame.link frame.picture pub) FramesWhole.pubPart hs

/-- The lists may lose entries, and the frame in hand may go. -/
theorem FramesWhole.ofLists (hs : FramesWhole s) {l : Link} {p : Publication} (holding : l.holding = s.link.holding)
    (list : ∀ e ∈ p.list, e ∈ s.pub.list ∨ e ∈ s.link.inHand) (deferred : ∀ e ∈ p.deferred, e ∈ s.pub.deferred)
    (inHand : ∀ e ∈ l.inHand, e ∈ s.link.inHand ∨ e ∈ s.pub.list) : FramesWhole ((s.withLink l).withPub p) := by
  refine ⟨?_, hs.events, fun e he => ?_, fun e he => hs.deferred e (deferred e he), fun e he => ?_, hs.slots⟩
  · rw [State.withPub_link, State.withLink_link, holding]; exact hs.holding
  · exact (list e he).elim (hs.list e) (hs.inHand e)
  · exact (inHand e he).elim (hs.inHand e) (hs.list e)

theorem FramesWhole.returnInHand (hs : FramesWhole s) : FramesWhole (returnInHand s) := by
  rcases returnInHand_cases s with ⟨-, h⟩ | ⟨e, hand, h⟩ <;> rw [h]
  · exact hs
  · rw [(returnFrame_frame e _).eq]
    refine hs.ofLists rfl (fun x hx => ?_) (fun x hx => ?_) (fun x hx => nomatch hx)
    · exact (mem_returnFrame hx).symm.imp_right fun k => by rw [k]; exact hand
    · rw [(returnFrame_list e _).1] at hx; exact hx

theorem FramesWhole.checkTally (hs : FramesWhole s) : FramesWhole (checkTally s) := by
  unfold Machine.checkTally
  split
  · have muted : FramesWhole (s.withLink (mutedLink (ms s) s.link)) :=
      ⟨hs.holding, hs.events, hs.list, hs.deferred, hs.inHand, hs.slots⟩
    exact muted.dutyMoves (reportCause_dutyMoves .linkMute _)
  · exact hs

theorem FramesWhole.settleAbort (hs : FramesWhole s) : FramesWhole (settleAbort s) := by
  unfold Machine.settleAbort
  split
  · exact hs.checkTally.returnInHand
  · exact hs.returnInHand.checkTally

/-- A link that holds another frame that is whole. -/
theorem FramesWhole.holds (hs : FramesWhole s) {l : Link} (f : HeldFrame) (whole : declaresLength f.header f.payload)
    (holding : l.holding = s.link.holding) (inHand : l.inHand = s.link.inHand ∨ l.inHand = none) :
    FramesWhole (s.withLink (holdFrame f l)) := by
  refine ⟨fun x hx => ?_, hs.events, hs.list, hs.deferred, fun e he => ?_, hs.slots⟩
  · rw [State.withLink_link, holdFrame] at hx
    split at hx
    · rcases List.mem_append.1 hx with hx | hx
      · exact hs.holding x (holding ▸ hx)
      · rw [List.mem_singleton.1 hx]; exact whole
    · exact hs.holding x (holding ▸ hx)
  · obtain ⟨-, -, -, kept, -⟩ := holdFrame_fields f l
    rw [State.withLink_link, kept] at he
    rcases inHand with same | none
    · exact hs.inHand e (same ▸ he)
    · rw [none] at he; cases he

theorem FramesWhole.linkPart (hs : FramesWhole s) (h : LinkPart s t) : FramesWhole t := by
  cases h with
  | received f whole =>
    unfold onLink receiveFrame
    dsimp only
    split
    · exact hs.holds ⟨.others, f.header, f.seq, f.payload⟩ whole rfl (.inl rfl)
    · exact ⟨hs.holding, hs.events, hs.list, hs.deferred, hs.inHand, hs.slots⟩
  | contends may =>
    obtain ⟨-, -, -, listed⟩ := mayContend_iff.1 may
    obtain ⟨e, rest, list⟩ := List.exists_cons_of_ne_nil listed
    rw [beginContest_cons list]
    refine hs.ofLists (p := { s.pub with list := rest }) rfl (fun x hx => .inl ?_) (fun x hx => hx) (fun x hx => .inr ?_)
    · rw [list]; exact List.mem_cons_of_mem _ hx
    · rw [← Option.some.inj hx, list]; exact List.mem_cons_self
  | lost contends =>
    exact FramesWhole.returnInHand ⟨hs.holding, hs.events, hs.list, hs.deferred, hs.inHand, hs.slots⟩
  | aborted aborts =>
    exact FramesWhole.settleAbort ⟨hs.holding, hs.events, hs.list, hs.deferred, hs.inHand, hs.slots⟩
  | sent e sends hand =>
    exact hs.holds ⟨.self, e.header, e.seq, e.payload⟩ (hs.inHand e hand) rfl (.inr rfl)
  | headDropped store =>
    exact ⟨fun f hf => hs.holding f (List.mem_of_mem_tail hf), hs.events, hs.list, hs.deferred, hs.inHand, hs.slots⟩
  | idle | framing | begins | won | faulted | unmuted =>
    exact ⟨hs.holding, hs.events, hs.list, hs.deferred, hs.inHand, hs.slots⟩

theorem FramesWhole.startPart (hs : FramesWhole s) (h : StartPart s t) : FramesWhole t := by
  cases h with
  | readAgain c => exact hs.congr rfl rfl rfl
  | imageFailed code c =>
    exact ⟨hs.holding, hs.events, (fun _ h => nomatch h), (fun _ h => nomatch h), (fun _ h => nomatch h), hs.slots⟩
  | imageAccepted m first c =>
    have whole : FramesWhole (joined m first s) := by
      constructor <;> simp only [joined_link, joined_picture, joined_pub, openLink]
      case holding => exact hs.holding
      case events => exact hs.events
      case list => exact hs.list
      case deferred => exact hs.deferred
      case inHand => exact fun _ h => nomatch h
      case slots => exact hs.slots
    exact whole.dutyMoves (enterJoining_dutyMoves m first s)
  | opened j =>
    have all : ∀ l : List TxEntry, (∀ e ∈ l, declaresLength e.header e.payload) →
        ∀ now old, (∀ e ∈ old, declaresLength e.header e.payload) →
        ∀ e ∈ l.foldl (enqueueDeferred now) old, declaresLength e.header e.payload := by
      intro l
      induction l with
      | nil => exact fun _ _ _ hold => hold
      | cons x rest ih =>
        refine fun hl now old hold => ih (fun e he => hl e (List.mem_cons_of_mem _ he)) now _ fun e he => ?_
        rcases mem_insertNew.1 he with rfl | he
        · exact hl x List.mem_cons_self
        · exact hold e he
    exact ⟨hs.holding, hs.events, all _ hs.deferred _ _ hs.list, (fun _ h => nomatch h), hs.inHand, hs.slots⟩

theorem FramesWhole.picturePart (hs : FramesWhole s) (h : PicturePart s t) : FramesWhole t := by
  cases h with
  | shortened | storing => exact ⟨hs.holding, hs.events, hs.list, hs.deferred, hs.inHand, hs.slots⟩
  | appended r f held =>
    refine ⟨hs.holding, fun e he => ?_, hs.list, hs.deferred, hs.inHand, ?_⟩
    · rcases mem_appendEvent he with rfl | he
      · exact hs.holding f held
      · exact hs.events e he
    · have same : (appendEvent (eventOf r f) s.picture).slots = s.picture.slots := by unfold appendEvent; split <;> rfl
      exact fun n x hx => hs.slots n x (by rw [← same]; exact hx)
  | stored now i f held =>
    refine ⟨hs.holding, hs.events, hs.list, hs.deferred, hs.inHand, fun n x hx => ?_⟩
    simp only [onPicture, State.withPicture_picture, finishStore] at hx
    split at hx
    · rename_i lt
      simp only [Fin.getElem_fin, Vector.getElem_set] at hx
      split at hx
      · obtain rfl := Option.some.inj hx
        refine ⟨?_, by simp [storeRecord]⟩
        rw [storeRecord, List.length_take, hs.holding f held]
      · exact hs.slots n x hx
    · exact hs.slots n x hx
  | aged m r held d =>
    refine ⟨hs.holding, hs.events, hs.list, hs.deferred, hs.inHand, fun n x hx => ?_⟩
    simp only [onPicture, State.withPicture_picture] at hx
    simp only [Fin.getElem_fin, Vector.getElem_set] at hx
    split at hx
    · obtain rfl := Option.some.inj hx
      obtain ⟨len, lost⟩ := hs.slots m r held
      have notLost : r.age ≠ .lost := fun k => d (lost.2 k)
      unfold ageRecord
      cases age : r.age with
      | fresh => exact ⟨len, by simpa using d⟩
      | aged => exact ⟨len, by simp⟩
      | lost => exact absurd age notLost
    · exact hs.slots n x hx
  | taken e rest queue =>
    refine ⟨hs.holding, fun x hx => hs.events x ?_, hs.list, hs.deferred, hs.inHand, hs.slots⟩
    rw [queue]; exact List.mem_cons_of_mem _ hx

theorem FramesWhole.part (hs : FramesWhole s) (h : Part s t) : FramesWhole t := by
  cases h with
  | passes => exact hs.congr rfl rfl rfl
  | start h => exact hs.startPart h
  | pub h => exact hs.pubPart h
  | link h => exact hs.linkPart h
  | picture h => exact hs.picturePart h
  | arm u h => exact hs.dutyMoves h.armMoves.dutyMoves
  | duty h => exact hs.dutyMoves h.dutyMoves
  | inputs i => exact hs.congr rfl rfl rfl
  | caused c => exact hs.dutyMoves (reportCause_dutyMoves c s)
  | released h => exact hs.dutyMoves (clearCauses_dutyMoves s)
  | flagsCleared =>
    constructor <;> simp only [clearFlags_link, clearFlags_picture, clearFlags_pub, clearLinkFlags, clearPictureFlags,
      Fin.getElem_fin, Vector.getElem_ofFn]
    case holding => exact hs.holding
    case events => exact hs.events
    case list => exact hs.list
    case deferred => exact hs.deferred
    case inHand => exact hs.inHand
    case slots => exact hs.slots

theorem FramesWhole.atReset (held : Bool) (address : BitVec 4) : FramesWhole (State.atReset held address) := by
  constructor <;> simp [State.atReset, State.resetLink, State.resetPicture, State.resetPub]

/-! ## Queues (R3, R21, R33, R59) -/

theorem QueuesBounded.congr (hs : QueuesBounded s) (link : t.link = s.link) (picture : t.picture = s.picture)
    (pub : t.pub = s.pub) : QueuesBounded t := by
  obtain ⟨holding, events, deferred, store⟩ := hs
  exact ⟨link ▸ holding, picture ▸ events, pub ▸ deferred, link ▸ picture ▸ store⟩

theorem QueuesBounded.pubPart (hs : QueuesBounded s) (h : PubPart s t) : QueuesBounded t :=
  ⟨h.frame.link ▸ hs.holding, h.frame.picture ▸ hs.events, h.lists.deferred_length hs.deferred,
    h.frame.link ▸ h.frame.picture ▸ hs.store⟩

theorem QueuesBounded.dutyMoves (hs : QueuesBounded s) (h : DutyMoves s t) : QueuesBounded t :=
  h.keep (fun frame pub k => k.congr frame.link frame.picture pub) QueuesBounded.pubPart hs

theorem QueuesBounded.returnInHand (hs : QueuesBounded s) : QueuesBounded (returnInHand s) := by
  rcases returnInHand_cases s with ⟨-, h⟩ | ⟨e, -, h⟩ <;> rw [h]
  · exact hs
  · rw [(returnFrame_frame e _).eq]
    refine ⟨hs.holding, hs.events, ?_, hs.store⟩
    rw [State.withPub_pub, (returnFrame_list e _).1]
    exact hs.deferred

theorem QueuesBounded.checkTally (hs : QueuesBounded s) : QueuesBounded (checkTally s) := by
  unfold Machine.checkTally
  split
  · have muted : QueuesBounded (s.withLink (mutedLink (ms s) s.link)) := ⟨hs.holding, hs.events, hs.deferred, hs.store⟩
    exact muted.dutyMoves (reportCause_dutyMoves .linkMute _)
  · exact hs

theorem QueuesBounded.settleAbort (hs : QueuesBounded s) : QueuesBounded (settleAbort s) := by
  unfold Machine.settleAbort
  split
  · exact hs.checkTally.returnInHand
  · exact hs.returnInHand.checkTally

theorem QueuesBounded.holds (hs : QueuesBounded s) {l : Link} (f : HeldFrame) (holding : l.holding = s.link.holding) :
    QueuesBounded (s.withLink (holdFrame f l)) := by
  refine ⟨holdFrame_length f (holding ▸ hs.holding), hs.events, hs.deferred, fun store => ?_⟩
  have nonempty : l.holding ≠ [] := holding ▸ hs.store store
  rw [State.withLink_link, holdFrame]
  split
  · exact List.append_ne_nil_of_left_ne_nil nonempty _
  · exact nonempty

theorem QueuesBounded.linkPart (hs : QueuesBounded s) (h : LinkPart s t) : QueuesBounded t := by
  cases h with
  | received f whole =>
    unfold onLink receiveFrame
    dsimp only
    split
    · exact hs.holds ⟨.others, f.header, f.seq, f.payload⟩ rfl
    · exact ⟨hs.holding, hs.events, hs.deferred, hs.store⟩
  | contends may =>
    obtain ⟨-, -, -, listed⟩ := mayContend_iff.1 may
    obtain ⟨e, rest, list⟩ := List.exists_cons_of_ne_nil listed
    rw [beginContest_cons list]
    exact ⟨hs.holding, hs.events, hs.deferred, hs.store⟩
  | lost contends => exact QueuesBounded.returnInHand ⟨hs.holding, hs.events, hs.deferred, hs.store⟩
  | aborted aborts => exact QueuesBounded.settleAbort ⟨hs.holding, hs.events, hs.deferred, hs.store⟩
  | sent e sends hand => exact hs.holds ⟨.self, e.header, e.seq, e.payload⟩ rfl
  | headDropped store =>
    have bound := hs.holding
    refine ⟨?_, hs.events, hs.deferred, fun some => ?_⟩
    · rw [dropHead, onLink, State.withLink_link, List.length_tail]; omega
    · exact absurd (show s.picture.store.isSome = true from some) (by simp [store])
  | idle | framing | begins | won | faulted | unmuted => exact ⟨hs.holding, hs.events, hs.deferred, hs.store⟩

theorem QueuesBounded.startPart (hs : QueuesBounded s) (h : StartPart s t) : QueuesBounded t := by
  cases h with
  | readAgain c => exact hs.congr rfl rfl rfl
  | imageFailed code c => exact ⟨hs.holding, hs.events, Nat.zero_le 4, hs.store⟩
  | imageAccepted m first c =>
    have bounded : QueuesBounded (joined m first s) := by
      constructor <;> simp only [joined_link, joined_picture, joined_pub, openLink]
      case holding => exact hs.holding
      case events => exact hs.events
      case deferred => exact hs.deferred
      case store => exact hs.store
    exact bounded.dutyMoves (enterJoining_dutyMoves m first s)
  | opened j => exact ⟨hs.holding, hs.events, Nat.zero_le 4, hs.store⟩

theorem QueuesBounded.picturePart (hs : QueuesBounded s) (h : PicturePart s t) : QueuesBounded t := by
  cases h with
  | shortened | aged => exact ⟨hs.holding, hs.events, hs.deferred, hs.store⟩
  | storing i held => exact ⟨hs.holding, hs.events, hs.deferred, fun _ => held⟩
  | stored now i f held => exact ⟨hs.holding, hs.events, hs.deferred, fun _ => List.ne_nil_of_mem held⟩
  | appended r f held =>
    exact ⟨hs.holding, appendEvent_length _ hs.events, hs.deferred, fun _ => List.ne_nil_of_mem held⟩
  | taken e rest queue =>
    refine ⟨hs.holding, ?_, hs.deferred, hs.store⟩
    have bound := hs.events
    rw [queue, List.length_cons] at bound
    exact Nat.le_of_succ_le bound

theorem QueuesBounded.part (hs : QueuesBounded s) (h : Part s t) : QueuesBounded t := by
  cases h with
  | passes => exact hs.congr rfl rfl rfl
  | start h => exact hs.startPart h
  | pub h => exact hs.pubPart h
  | link h => exact hs.linkPart h
  | picture h => exact hs.picturePart h
  | arm u h => exact hs.dutyMoves h.armMoves.dutyMoves
  | duty h => exact hs.dutyMoves h.dutyMoves
  | inputs i => exact hs.congr rfl rfl rfl
  | caused c => exact hs.dutyMoves (reportCause_dutyMoves c s)
  | released h => exact hs.dutyMoves (clearCauses_dutyMoves s)
  | flagsCleared =>
    constructor <;> simp only [clearFlags_link, clearFlags_picture, clearFlags_pub, clearLinkFlags, clearPictureFlags]
    case holding => exact hs.holding
    case events => exact hs.events
    case deferred => exact hs.deferred
    case store => exact hs.store

theorem QueuesBounded.atReset (held : Bool) (address : BitVec 4) : QueuesBounded (State.atReset held address) := by
  constructor <;> simp [State.atReset, State.resetLink, State.resetPicture, State.resetPub]

end

end Sys2Proof.Machine
end

section
/-! PROOFS. Absent duties stand at their reset values, through every part of a command. -/

namespace Sys2Proof.Machine

section
variable {s t : State} {u : ArmUnit}

theorem dutiesRun_eq_false_iff : dutiesRun s = false ↔ s.loader.station ≠ .joining ∧ s.loader.station ≠ .operating := by
  simp [dutiesRun]

theorem CarriedDutiesOnly.congr (hs : CarriedDutiesOnly s) (loader : t.loader = s.loader) (duties : t.duties = s.duties)
    (drive : t.drive = s.drive) (arm : ∀ u, t.arm u = s.arm u) (water : t.water = s.water) : CarriedDutiesOnly t := by
  have run : dutiesRun t = dutiesRun s := by unfold dutiesRun; rw [loader]
  have present (u : ArmUnit) : armPresent t u = armPresent s u := by cases u <;> simp [armPresent, duties]
  refine ⟨fun h => ?_, fun h => ?_, fun u h => ?_, fun h => ?_⟩
  · rw [duties]; exact hs.noneYet (run ▸ h)
  · rw [drive, loader]; exact hs.drive (duties ▸ h)
  · rw [arm]; exact hs.arm u (present u ▸ h)
  · rw [water]; exact hs.water (duties ▸ h)

theorem CarriedDutiesOnly.ofPub (hs : CarriedDutiesOnly s) (h : KeepsAllButPub s t) : CarriedDutiesOnly t :=
  hs.congr h.loader h.duties h.drive h.arm h.water

/-- An arm unit changed leaves the absent duties alone if it is carried, or changes its deflect-off instant at most. -/
theorem CarriedDutiesOnly.ofArm (hs : CarriedDutiesOnly s) (frame : KeepsAllButArm u s t)
    (absent : armPresent s u = false → t.arm u = { s.arm u with deflectOff := (t.arm u).deflectOff }) :
    CarriedDutiesOnly t := by
  refine ⟨fun h => ?_, fun h => ?_, fun v h => ?_, fun h => ?_⟩
  · rw [frame.duties]; exact hs.noneYet (frame.dutiesRun_eq ▸ h)
  · rw [frame.drive, frame.loader]; exact hs.drive (frame.duties ▸ h)
  · rw [frame.armPresent_eq] at h
    by_cases e : v = u
    · subst e
      rw [absent h]
      conv => lhs; rw [hs.arm v h]
    · rw [frame.other v e]; exact hs.arm v h
  · rw [frame.water]; exact hs.water (frame.duties ▸ h)

/-- The other duties' blocks changed where the duty is carried. -/
theorem CarriedDutiesOnly.ofDuties (hs : CarriedDutiesOnly s) (frame : KeepsAllButDuties s t)
    (drive : s.duties.drive = false → t.drive = s.drive) (arm : ∀ u, armPresent s u = false → t.arm u = s.arm u)
    (water : s.duties.water = false → t.water = s.water) : CarriedDutiesOnly t := by
  refine ⟨fun h => ?_, fun h => ?_, fun v h => ?_, fun h => ?_⟩
  · rw [frame.duties]; exact hs.noneYet (frame.dutiesRun_eq ▸ h)
  · rw [frame.duties] at h; rw [drive h, frame.loader]; exact hs.drive h
  · rw [frame.armPresent_eq] at h; rw [arm v h]; exact hs.arm v h
  · rw [frame.duties] at h; rw [water h]; exact hs.water h

/-- An arm unit the station does not carry is STOWED, so that nothing moves it (R148). -/
theorem CarriedDutiesOnly.present_of_active (hs : CarriedDutiesOnly s) (h : armActive (s.arm u) = true) :
    armPresent s u = true := by
  refine Classical.byContradiction fun absent => ?_
  rw [hs.arm u (Bool.not_eq_true _ ▸ absent)] at h
  cases h

theorem CarriedDutiesOnly.armPart (hs : CarriedDutiesOnly s) (h : ArmPart u s t) : CarriedDutiesOnly t := by
  refine hs.ofArm h.frame fun absent => ?_
  cases h with
  | faults c h =>
    have stays : faultEvent u c s = s := by simp [faultEvent, absent]
    rw [stays]
  | deflect x => rw [State.withArm_arm_same]
  | retracts active | yields active | resumes active =>
    rw [hs.present_of_active active] at absent; cases absent
  | read e p | noted x p h | completes p h | freed p h f j | ready p | deploys p o f h | brushed p | window e p h =>
    rw [p] at absent; cases absent

theorem setAllClaims_arm (u : ArmUnit) (s : State) : (setAllClaims s).arm u = { s.arm u with
    claim := if armPresent s u = true then some (formClaim s (armOwnClaim (armParams s u) (s.arm u))) else (s.arm u).claim } := by
  cases u
  · exact setAllClaims_armA s
  · exact setAllClaims_armB s

theorem CarriedDutiesOnly.setAllClaims (hs : CarriedDutiesOnly s) : CarriedDutiesOnly (setAllClaims s) := by
  refine hs.ofDuties (setAllClaims_frame s) (fun h => ?_) (fun u h => ?_) (fun h => ?_)
  · rw [setAllClaims_drive, h]; rfl
  · rw [setAllClaims_arm, h]; rfl
  · rw [setAllClaims_water, h]; rfl

theorem CarriedDutiesOnly.safeDrive (hs : CarriedDutiesOnly s) : CarriedDutiesOnly (s.withDrive (safeDrive s.drive)) := by
  refine hs.ofDuties (.withDrive ..) (fun h => ?_) (fun u h => ?_) (fun h => rfl)
  · rw [State.withDrive_drive, hs.drive h]; rfl
  · rw [State.withDrive_arm]

theorem safeWater_arm (u : ArmUnit) (s : State) : (safeWater s).arm u = s.arm u := by
  have off (q : State) : (changeWater .off q).arm u = q.arm u :=
    ((requestCyclic_frame .water _).arm u).trans <| ((checkUrgency_frame _).arm u).trans <|
      (State.withWater_arm ..).trans (State.withWater_arm ..)
  unfold safeWater
  split
  · exact (off _).trans (State.withWater_arm ..)
  · exact (off _).trans (State.withWater_arm ..)
  · exact (off _).trans (State.withWater_arm ..)
  · exact State.withWater_arm ..
  · exact State.withWater_arm ..
  · exact State.withWater_arm ..

theorem safeWater_drive (s : State) : (safeWater s).drive = s.drive := by
  have off (q : State) : (changeWater .off q).drive = q.drive :=
    (requestCyclic_frame .water _).drive.trans (checkUrgency_frame _).drive
  unfold safeWater
  split
  · exact off _
  · exact off _
  · exact off _
  · rfl
  · rfl
  · rfl

theorem CarriedDutiesOnly.safeWater (hs : CarriedDutiesOnly s) (p : s.duties.water = true) :
    CarriedDutiesOnly (safeWater s) :=
  hs.ofDuties (safeWater_frame s) (fun _ => safeWater_drive s) (fun u _ => safeWater_arm u s) fun h => by
    rw [p] at h; cases h

theorem CarriedDutiesOnly.faultEvent (hs : CarriedDutiesOnly s) {c : ArmFault} (h : c ≠ .none) :
    CarriedDutiesOnly (faultEvent u c s) := hs.armPart (.faults c h)

theorem CarriedDutiesOnly.safeEntry (hs : CarriedDutiesOnly s) : CarriedDutiesOnly (safeEntry s) := by
  have claimed := hs.setAllClaims.ofPub (checkUrgency_frame _)
  have moved := (claimed.safeDrive.faultEvent (u := .a) (c := .stationSafe) (by decide)).faultEvent (u := .b) (c := .stationSafe)
    (by decide)
  unfold Machine.safeEntry
  dsimp only
  cases p : s.duties.water
  · exact moved
  · refine moved.safeWater ?_
    have frames := (setAllClaims_frame s).trans (.ofPub (checkUrgency_frame _))
    rw [(faultEvent_frame ..).duties, (faultEvent_frame ..).duties]
    exact (congrArg DutySet.water frames.duties).trans p

theorem CarriedDutiesOnly.withCauses (hs : CarriedDutiesOnly s) (c : CauseSet) :
    CarriedDutiesOnly (s.withSafe { s.safe with causes := c }) :=
  hs.congr rfl rfl rfl (fun _ => State.withSafe_arm ..) rfl

theorem CarriedDutiesOnly.reportCause (hs : CarriedDutiesOnly s) (c : Cause) : CarriedDutiesOnly (reportCause c s) := by
  have entered : CarriedDutiesOnly (if isSafe s then s.withSafe { s.safe with causes := addCause s.safe.causes c }
      else Machine.safeEntry (s.withSafe { s.safe with causes := addCause s.safe.causes c })) := by
    split
    · exact hs.withCauses _
    · exact (hs.withCauses _).safeEntry
  unfold Machine.reportCause
  dsimp only
  split
  · exact hs
  · split
    · exact entered.ofPub (requestEvent_frame ..)
    · exact entered

theorem CarriedDutiesOnly.ofLink (hs : CarriedDutiesOnly s) (l : Link) : CarriedDutiesOnly (s.withLink l) :=
  hs.congr rfl rfl rfl (fun _ => State.withLink_arm ..) rfl

theorem CarriedDutiesOnly.returnInHand (hs : CarriedDutiesOnly s) : CarriedDutiesOnly (returnInHand s) := by
  rcases returnInHand_cases s with ⟨-, h⟩ | ⟨e, -, h⟩ <;> rw [h]
  · exact hs
  · exact (hs.ofLink _).ofPub (returnFrame_frame ..)

theorem CarriedDutiesOnly.checkTally (hs : CarriedDutiesOnly s) : CarriedDutiesOnly (checkTally s) := by
  unfold Machine.checkTally
  split
  · exact (hs.ofLink (mutedLink (ms s) s.link)).reportCause .linkMute
  · exact hs

theorem CarriedDutiesOnly.settleAbort (hs : CarriedDutiesOnly s) : CarriedDutiesOnly (settleAbort s) := by
  unfold Machine.settleAbort
  split
  · exact hs.checkTally.returnInHand
  · exact hs.returnInHand.checkTally

theorem CarriedDutiesOnly.linkPart (hs : CarriedDutiesOnly s) (h : LinkPart s t) : CarriedDutiesOnly t := by
  cases h with
  | contends may =>
    obtain ⟨-, -, -, listed⟩ := mayContend_iff.1 may
    obtain ⟨e, rest, list⟩ := List.exists_cons_of_ne_nil listed
    rw [beginContest_cons list]
    exact (hs.ofPub (.withPub ..)).ofLink _
  | lost contends => exact (hs.ofLink _).returnInHand
  | aborted aborts => exact (hs.ofLink _).settleAbort
  | idle | framing | received | begins | won | faulted | unmuted | sent | headDropped => exact hs.ofLink _

/-- What the entry to JOINING makes of the duties: those the image gives start, the others stay as they were. -/
theorem enterJoining_absent (m : Image) (first : Vector Permille 4) (s : State) :
    ((enterJoining m first s).duties.drive = false → (enterJoining m first s).drive = s.drive)
    ∧ (∀ u, armPresent (enterJoining m first s) u = false → (enterJoining m first s).arm u = s.arm u)
    ∧ ((enterJoining m first s).duties.water = false → (enterJoining m first s).water = s.water)
    ∧ ((enterJoining m first s).duties.console = false → (enterJoining m first s).console = s.console) := by
  have frame := enterJoining_frame m first s
  refine ⟨fun h => ?_, fun u h => ?_, fun h => ?_, fun h => ?_⟩
  · rw [frame.duties] at h; rw [enterJoining_eq, startDuties_drive, h]; rfl
  · rw [frame.armPresent_eq] at h; rw [enterJoining_eq, startDuties_arm, h]; exact joined_arm ..
  · rw [frame.duties] at h; rw [enterJoining_eq, startDuties_water, h]; rfl
  · rw [frame.duties] at h; rw [enterJoining_eq, startDuties_console, h]; rfl

theorem enterJoining_loader (m : Image) (first : Vector Permille 4) (s : State) :
    (enterJoining m first s).loader.station = .joining ∧ (enterJoining m first s).loader.address = s.loader.address := by
  rw [(enterJoining_frame m first s).loader]
  exact ⟨joined_station .., joined_address ..⟩

/-- A station in CONFIGURING carries nothing, so that every duty stands at its reset values (R106, R148, R169, R201). -/
theorem CarriedDutiesOnly.configuring (hs : CarriedDutiesOnly s) (c : s.loader.station = .configuring) :
    s.duties = ⟨false, false, false, false, false⟩ ∧ s.drive = State.resetDrive s.loader.address
      ∧ (∀ u, s.arm u = { State.resetArm with deflectOff := (s.arm u).deflectOff }) ∧ s.water = State.resetWater := by
  have none := hs.noneYet (dutiesRun_eq_false_iff.2 (by rw [c]; decide))
  have absent (u : ArmUnit) : armPresent s u = false := by cases u <;> simp [armPresent, none]
  exact ⟨none, hs.drive (by rw [none]), fun u => hs.arm u (absent u), hs.water (by rw [none])⟩

theorem CarriedDutiesOnly.startPart (hs : CarriedDutiesOnly s) (h : StartPart s t) : CarriedDutiesOnly t := by
  cases h with
  | readAgain c =>
    obtain ⟨none, drive, arm, water⟩ := hs.configuring c
    exact ⟨fun _ => none, fun _ => drive, fun u _ => by rw [startRead, State.withLoader_arm]; exact arm u, fun _ => water⟩
  | imageFailed code c =>
    obtain ⟨none, drive, arm, water⟩ := hs.configuring c
    exact ⟨fun _ => none, fun _ => drive,
      fun u _ => by rw [failImage, State.withPub_arm, State.withLink_arm, State.withLoader_arm]; exact arm u, fun _ => water⟩
  | imageAccepted m first c =>
    obtain ⟨-, drive, arm, water⟩ := hs.configuring c
    obtain ⟨driveStays, armStays, waterStays, -⟩ := enterJoining_absent m first s
    obtain ⟨station, address⟩ := enterJoining_loader m first s
    refine ⟨fun idle => ?_, fun h => ?_, fun u h => ?_, fun h => ?_⟩
    · exact absurd station (dutiesRun_eq_false_iff.1 idle).1
    · rw [driveStays h, address]; exact drive
    · rw [armStays u h]; exact arm u
    · rw [waterStays h]; exact water
  | opened j =>
    refine ⟨(fun idle => nomatch idle), hs.drive, fun u h => ?_, hs.water⟩
    have same : (openList s).arm u = s.arm u := by cases u <;> rfl
    have present : armPresent (openList s) u = armPresent s u := by cases u <;> rfl
    rw [same]; exact hs.arm u (present ▸ h)

theorem CarriedDutiesOnly.dutyPart (hs : CarriedDutiesOnly s) (h : DutyPart s t) : CarriedDutiesOnly t := by
  refine hs.ofDuties h.frame (fun absent => ?_) (fun u _ => ?_) (fun absent => ?_)
  · cases h with
    | driveClaimed p | driveWorked e p => rw [p] at absent; cases absent
    | waterStopped | waterWorked | console => rfl
  · cases h <;> cases u <;> rfl
  · cases h with
    | waterStopped p | waterWorked e p => rw [p] at absent; cases absent
    | driveClaimed | driveWorked | console => rfl

theorem CarriedDutiesOnly.clearCauses (hs : CarriedDutiesOnly s) : CarriedDutiesOnly (clearCauses s) :=
  (hs.withCauses noCauses).setAllClaims

theorem CarriedDutiesOnly.part (hs : CarriedDutiesOnly s) (h : Part s t) : CarriedDutiesOnly t := by
  cases h with
  | passes => exact hs.congr rfl rfl rfl (fun u => by cases u <;> rfl) rfl
  | start h => exact hs.startPart h
  | pub h => exact hs.ofPub h.frame
  | link h => exact hs.linkPart h
  | picture h => rw [h.eq]; exact hs.congr rfl rfl rfl (fun _ => State.withPicture_arm ..) rfl
  | arm u h => exact hs.armPart h
  | duty h => exact hs.dutyPart h
  | inputs i => exact hs.congr rfl rfl rfl (fun _ => State.withInputs_arm ..) rfl
  | caused c => exact hs.reportCause c
  | released h => exact hs.clearCauses
  | flagsCleared => exact hs.congr rfl rfl rfl (fun u => by cases u <;> rfl) rfl

theorem CarriedDutiesOnly.atReset (held : Bool) (address : BitVec 4) : CarriedDutiesOnly (State.atReset held address) :=
  ⟨fun _ => rfl, fun _ => rfl, fun u _ => by cases u <;> rfl, fun _ => rfl⟩

end

/-- Settles O60: every part of a command keeps each of the three alone. -/
theorem carriedFramesAndQueuesStayWhole : Obligations.CarriedFramesAndQueuesStayWhole := fun _ _ h =>
  ⟨fun hs => step_keeps FramesWhole.atReset (fun _ k => k.congr rfl rfl rfl) FramesWhole.part hs h,
    fun hs => step_keeps QueuesBounded.atReset (fun _ k => k.congr rfl rfl rfl) QueuesBounded.part hs h,
    fun hs => step_keeps CarriedDutiesOnly.atReset (fun _ k => k.congr rfl rfl rfl (fun u => by cases u <;> rfl) rfl)
      CarriedDutiesOnly.part hs h⟩

end Sys2Proof.Machine
end

section
/-! PROOFS. The transmit list stays as spec/03, 3.3 has it, through every part of a command. -/

namespace Sys2Proof.Machine

section
variable {s t : State}

/-! ## The orders of the list -/

/-- At most one pending entry of a cyclic header stands in a list (R53). -/
def OnceCyclic (l : List TxEntry) : Prop :=
  l.Pairwise fun a b => a.kind = .cyclic → b.kind = .cyclic → a.header ≠ b.header

theorem OnceCyclic.perm {l m : List TxEntry} (h : OnceCyclic l) (p : l.Perm m) : OnceCyclic m :=
  (p.pairwise_iff fun k ka kb => (k kb ka).symm).1 h

theorem OnceCyclic.cons_event {e : TxEntry} {l : List TxEntry} (h : OnceCyclic l) (event : e.kind = .event) :
    OnceCyclic (e :: l) :=
  List.pairwise_cons.2 ⟨(fun _ _ k => by rw [event] at k; cases k), h⟩

theorem OnceCyclic.cons_fresh {e : TxEntry} {l : List TxEntry} (h : OnceCyclic l) (fresh : ¬PendingCyclic e.header l) :
    OnceCyclic (e :: l) :=
  List.pairwise_cons.2 ⟨fun b hb _ cyclic same => fresh ⟨b, hb, cyclic, same.symm⟩, h⟩

theorem OnceCyclic.insertNew_event {e : TxEntry} {l : List TxEntry} (h : OnceCyclic l) (event : e.kind = .event) :
    OnceCyclic (insertNew e l) := (h.cons_event event).perm (insertNew_perm e l).symm

theorem OnceCyclic.insertNew_fresh {e : TxEntry} {l : List TxEntry} (h : OnceCyclic l) (fresh : ¬PendingCyclic e.header l) :
    OnceCyclic (insertNew e l) := (h.cons_fresh fresh).perm (insertNew_perm e l).symm

/-- How many events of a list hold event places (R53). -/
def eventCount (l : List TxEntry) : Nat := (l.filter isEvent).length

theorem eventCount_perm {l m : List TxEntry} (p : l.Perm m) : eventCount l = eventCount m := (p.filter _).length_eq

theorem eventCount_cons (e : TxEntry) (l : List TxEntry) : eventCount (e :: l) = (if isEvent e then 1 else 0) + eventCount l := by
  unfold eventCount
  rw [List.filter_cons]
  split <;> simp; omega

theorem eventCount_insertNew (e : TxEntry) (l : List TxEntry) :
    eventCount (insertNew e l) = (if isEvent e then 1 else 0) + eventCount l :=
  (eventCount_perm (insertNew_perm e l)).trans (eventCount_cons e l)

theorem eventCount_insertReturned (e : TxEntry) (l : List TxEntry) :
    eventCount (insertReturned e l) = (if isEvent e then 1 else 0) + eventCount l :=
  (eventCount_perm (insertReturned_perm e l)).trans (eventCount_cons e l)

theorem isEvent_of_event {e : TxEntry} (h : e.kind = .event) : isEvent e = true := beq_iff_eq.2 h

theorem not_isEvent_of_cyclic {e : TxEntry} (h : e.kind = .cyclic) : isEvent e = false := by simp [isEvent, h]

/-- The event place of a frame in hand (R53). -/
def handCount (inHand : Option TxEntry) : Nat := (inHand.filter isEvent).toList.length

theorem placesTaken_eq (s : State) : placesTaken s = eventCount s.pub.list + handCount s.link.inHand := rfl

theorem handCount_some (e : TxEntry) : handCount (some e) = if isEvent e then 1 else 0 := by
  unfold handCount
  cases h : isEvent e <;> simp [Option.filter, h]

/-! ## The invariant -/

theorem ownCyclic_congr {e : TxEntry} (loader : t.loader = s.loader) (duties : t.duties = s.duties) :
    ownCyclic t e ↔ ownCyclic s e := by unfold ownCyclic; rw [loader, duties]

theorem TransmitListOrdered.congr (hs : TransmitListOrdered s) (loader : t.loader = s.loader) (duties : t.duties = s.duties)
    (inHand : t.link.inHand = s.link.inHand) (list : t.pub.list = s.pub.list) (deferred : t.pub.deferred = s.pub.deferred) :
    TransmitListOrdered t := by
  constructor
  · rw [list]; exact hs.order
  · rw [list]; exact fun e he k => (ownCyclic_congr loader duties).2 (hs.cyclic e he k)
  · rw [list]; exact hs.once
  · rw [inHand]; exact fun e he k => (ownCyclic_congr loader duties).2 (hs.inHand e he k)
  · rw [placesTaken_eq, list, inHand]; exact hs.places
  · rw [deferred]; exact hs.deferred
  · rw [loader, list, inHand]; exact hs.silent
  · rw [loader, list, inHand]; exact hs.notices

/-- An entry of a station that sends, with its kind and header as they stand: an event joins the list. -/
theorem TransmitListOrdered.joins (hs : TransmitListOrdered s) (frame : KeepsAllButPub s t) {topic : Topic} {payload : List Byte}
    {l : List TxEntry} (sub : l.Sublist s.pub.list) (room : eventCount l + handCount s.link.inHand < 4)
    (o : s.loader.station = .operating ∨ s.loader.station = .configFault ∧ topic = .notice)
    (list : t.pub.list = insertNew (eventEntry s topic payload) l) (deferred : t.pub.deferred = s.pub.deferred) :
    TransmitListOrdered t := by
  have event : (eventEntry s topic payload).kind = .event := rfl
  constructor
  · rw [list]; exact insertNew_inOrder (hs.order.sublist sub)
  · rw [list]
    intro e he k
    rcases mem_insertNew.1 he with rfl | he
    · rw [event] at k; cases k
    · exact (ownCyclic_congr frame.loader frame.duties).2 (hs.cyclic e (sub.subset he) k)
  · rw [list]; exact OnceCyclic.insertNew_event (hs.once.sublist sub) event
  · rw [frame.link]; exact fun e he k => (ownCyclic_congr frame.loader frame.duties).2 (hs.inHand e he k)
  · rw [placesTaken_eq, list, frame.link, eventCount_insertNew, if_pos (isEvent_of_event event)]; omega
  · rw [deferred]; exact hs.deferred
  · intro quiet
    rw [frame.loader] at quiet
    rcases o with o | ⟨o, -⟩ <;> rw [o] at quiet <;> simp at quiet
  · intro fault e he
    rw [frame.loader] at fault
    rw [list, frame.link] at he
    rcases o with o | ⟨-, rfl⟩
    · rw [o] at fault; cases fault
    · rcases he with he | he
      · rcases mem_insertNew.1 he with rfl | he
        · exact ⟨rfl, headerTopic_topicHeader ..⟩
        · exact hs.notices fault e (.inl (sub.subset he))
      · exact hs.notices fault e (.inr he)

theorem TransmitListOrdered.defers (hs : TransmitListOrdered s) (frame : KeepsAllButPub s t) {e : TxEntry} {l : List TxEntry}
    (sub : ∀ x ∈ l, x ∈ s.pub.deferred) (room : l.length < 4) (event : e.kind = .event) (list : t.pub.list = s.pub.list)
    (deferred : t.pub.deferred = l ++ [e]) : TransmitListOrdered t := by
  have kept : TransmitListOrdered (s.withPub { s.pub with deferred := l ++ [e] }) := by
    refine ⟨hs.order, hs.cyclic, hs.once, hs.inHand, hs.places, ⟨?_, fun x hx => ?_⟩, hs.silent, hs.notices⟩
    · simp only [State.withPub_pub, List.length_append, List.length_singleton]; omega
    · rcases List.mem_append.1 hx with hx | hx
      · obtain ⟨-, events⟩ := hs.deferred
        exact events x (sub x hx)
      · rw [List.mem_singleton.1 hx]; exact event
  exact kept.congr frame.loader frame.duties (congrArg Link.inHand frame.link) list deferred

theorem TransmitListOrdered.pubPart (hs : TransmitListOrdered s) (h : PubPart s t) : TransmitListOrdered t := by
  have frame := h.frame
  have lists := h.lists
  obtain ⟨l, hl⟩ : ∃ l, l = t.pub.list := ⟨_, rfl⟩
  obtain ⟨d, hd⟩ : ∃ d, d = t.pub.deferred := ⟨_, rfl⟩
  rw [← hl, ← hd] at lists
  cases lists with
  | kept => exact hs.congr frame.loader frame.duties (congrArg Link.inHand frame.link) hl.symm hd.symm
  | rebuilt v =>
    obtain ⟨f, hf⟩ : ∃ f : TxEntry → TxEntry,
        f = fun x => if isPendingCyclic (cyclicEntry s v).header x then cyclicEntry s v else x := ⟨_, rfl⟩
    have same (x : TxEntry) : (f x).kind = x.kind ∧ (f x).header = x.header := by
      rw [hf]
      dsimp only
      split
      · rename_i pending
        obtain ⟨kind, header⟩ := Bool.and_eq_true_iff.1 pending
        exact ⟨(eq_of_beq kind).symm, (eq_of_beq header).symm⟩
      · exact ⟨rfl, rfl⟩
    have count : eventCount (s.pub.list.map f) = eventCount s.pub.list := by
      unfold eventCount
      rw [List.filter_map, List.length_map]
      congr 2
      funext x
      simp [isEvent, same]
    rw [← hf] at hl
    constructor
    · rw [← hl, List.pairwise_map]; simp only [same]; exact hs.order
    · rw [← hl]
      intro e he k
      obtain ⟨x, hx, rfl⟩ := List.mem_map.1 he
      obtain ⟨kind, header⟩ := same x
      rw [kind] at k
      obtain ⟨w, published, own⟩ := hs.cyclic x hx k
      exact (ownCyclic_congr frame.loader frame.duties).2 ⟨w, published, header.trans own⟩
    · rw [← hl, List.pairwise_map]; simp only [same]; exact hs.once
    · rw [frame.link]; exact fun e he k => (ownCyclic_congr frame.loader frame.duties).2 (hs.inHand e he k)
    · rw [placesTaken_eq, ← hl, frame.link, count]; exact hs.places
    · rw [← hd]; exact hs.deferred
    · rw [frame.loader, ← hl, frame.link]
      intro quiet
      obtain ⟨list, hand⟩ := hs.silent quiet
      exact ⟨by rw [list]; rfl, hand⟩
    · rw [frame.loader, ← hl, frame.link]
      rintro fault e (he | he)
      · obtain ⟨x, hx, rfl⟩ := List.mem_map.1 he
        obtain ⟨kind, header⟩ := same x
        rw [kind, header]
        exact hs.notices fault x (.inl hx)
      · exact hs.notices fault e (.inr he)
  | listed v o p fresh =>
    constructor
    · rw [← hl]; exact insertNew_inOrder hs.order
    · rw [← hl]
      intro e he k
      rcases mem_insertNew.1 he with rfl | he
      · exact (ownCyclic_congr frame.loader frame.duties).2 ⟨v, p, rfl⟩
      · exact (ownCyclic_congr frame.loader frame.duties).2 (hs.cyclic e he k)
    · rw [← hl]; exact OnceCyclic.insertNew_fresh hs.once fresh
    · rw [frame.link]; exact fun e he k => (ownCyclic_congr frame.loader frame.duties).2 (hs.inHand e he k)
    · rw [placesTaken_eq, ← hl, frame.link, eventCount_insertNew, if_neg (by simp [isEvent, cyclicEntry]), Nat.zero_add]
      exact hs.places
    · rw [← hd]; exact hs.deferred
    · rw [frame.loader, o]; simp
    · rw [frame.loader, o]; simp
  | joins topic payload len free o =>
    exact hs.joins frame (.refl _) free o hl.symm hd.symm
  | displaces topic payload len o before x after split event =>
    refine hs.joins frame (l := before ++ after) ?_ ?_ (.inl o) hl.symm hd.symm
    · rw [split]; exact (List.sublist_cons_self x after).append_left before
    · have places := hs.places
      have count : eventCount s.pub.list = eventCount (before ++ after) + 1 := by
        rw [split, eventCount_perm List.perm_middle, eventCount_cons, if_pos (isEvent_of_event event)]; omega
      rw [placesTaken_eq] at places
      omega
  | waits topic payload len free =>
    exact hs.defers frame (fun _ hx => hx) free rfl hl.symm hd.symm
  | waitsFor topic payload len before x after split =>
    obtain ⟨bound, -⟩ := hs.deferred
    refine hs.defers frame (l := before ++ after) (fun y hy => ?_) ?_ rfl hl.symm hd.symm
    · rw [split]
      rcases List.mem_append.1 hy with hy | hy
      · exact List.mem_append_left _ hy
      · exact List.mem_append_right _ (List.mem_cons_of_mem _ hy)
    · rw [split, List.length_append, List.length_cons] at bound
      rw [List.length_append]; omega

theorem TransmitListOrdered.dutyMoves (hs : TransmitListOrdered s) (h : DutyMoves s t) : TransmitListOrdered t :=
  h.keep (fun frame pub k => k.congr frame.loader frame.duties (congrArg Link.inHand frame.link) (congrArg _ pub)
    (congrArg _ pub)) TransmitListOrdered.pubPart hs

/-! ## The link's parts -/

theorem TransmitListOrdered.ofLink (hs : TransmitListOrdered s) {l : Link} (inHand : l.inHand = s.link.inHand) :
    TransmitListOrdered (s.withLink l) := hs.congr rfl rfl inHand rfl rfl

/-- A frame that has gone out of hand leaves the list as it is. -/
theorem TransmitListOrdered.handEmpty (hs : TransmitListOrdered s) {l : Link} (none : l.inHand = none) :
    TransmitListOrdered (s.withLink l) := by
  have places := hs.places
  rw [placesTaken_eq] at places
  refine ⟨hs.order, hs.cyclic, hs.once, fun e he => ?_, ?_, hs.deferred, fun quiet => ⟨(hs.silent quiet).1, none⟩,
    fun fault e he => ?_⟩
  · rw [State.withLink_link, none] at he; cases he
  · rw [placesTaken_eq, State.withLink_link, none]; exact Nat.le_trans (Nat.le_add_right ..) places
  · rw [State.withLink_link, none] at he
    rcases he with he | he
    · exact hs.notices fault e (.inl he)
    · cases he

theorem TransmitListOrdered.returnInHand (hs : TransmitListOrdered s) : TransmitListOrdered (returnInHand s) := by
  rcases returnInHand_cases s with ⟨-, h⟩ | ⟨e, hand, h⟩ <;> rw [h]
  · exact hs
  have empty : TransmitListOrdered (s.withLink { s.link with inHand := none }) := hs.handEmpty rfl
  have frame := returnFrame_frame e (s.withLink { s.link with inHand := none })
  obtain ⟨deferred, lists⟩ := returnFrame_list e (s.withLink { s.link with inHand := none })
  have notQuiet : ¬(s.loader.station = .configuring ∨ s.loader.station = .joining) := fun quiet => by
    obtain ⟨-, noHand⟩ := hs.silent quiet
    rw [hand] at noHand; cases noHand
  have places := hs.places
  rw [placesTaken_eq, hand, handCount_some] at places
  have rejoins (l : List TxEntry) (perm : l.Perm (e :: s.pub.list)) (order : inOrder l)
      (list : (returnFrame e (s.withLink { s.link with inHand := none })).pub.list = l)
      (once : OnceCyclic (e :: s.pub.list)) : TransmitListOrdered (returnFrame e (s.withLink { s.link with inHand := none })) := by
    have inHand : (returnFrame e (s.withLink { s.link with inHand := none })).link.inHand = none := by rw [frame.link]; rfl
    constructor
    · rw [list]; exact order
    · rw [list]
      intro x hx k
      rw [ownCyclic_congr frame.loader frame.duties]
      rcases List.mem_cons.1 (perm.subset hx) with rfl | hx
      · exact hs.inHand _ hand k
      · exact hs.cyclic x hx k
    · rw [list]; exact once.perm perm.symm
    · rw [inHand]; exact fun x hx => nomatch hx
    · rw [placesTaken_eq, list, inHand, eventCount_perm perm, eventCount_cons]
      simp only [handCount, Option.filter_none, Option.toList_none, List.length_nil]
      omega
    · rw [deferred]; exact hs.deferred
    · intro quiet
      rw [frame.loader] at quiet
      exact absurd quiet notQuiet
    · intro fault x hx
      rw [frame.loader] at fault
      rw [list, inHand] at hx
      rcases hx with hx | hx
      · rcases List.mem_cons.1 (perm.subset hx) with rfl | hx
        · exact hs.notices fault _ (.inr hand)
        · exact hs.notices fault x (.inl hx)
      · cases hx
  rcases lists with ⟨list, cyclic⟩ | ⟨list, cyclic, fresh⟩ | ⟨list, event⟩
  · exact empty.congr frame.loader frame.duties (congrArg Link.inHand frame.link) list deferred
  · exact rejoins _ (insertNew_perm ..) (insertNew_inOrder hs.order) list (OnceCyclic.cons_fresh hs.once fresh)
  · exact rejoins _ (insertReturned_perm ..) (insertReturned_inOrder hs.order) list (OnceCyclic.cons_event hs.once event)

theorem TransmitListOrdered.checkTally (hs : TransmitListOrdered s) : TransmitListOrdered (checkTally s) := by
  unfold Machine.checkTally
  split
  · have muted : TransmitListOrdered (s.withLink (mutedLink (ms s) s.link)) := hs.ofLink rfl
    exact muted.dutyMoves (reportCause_dutyMoves .linkMute _)
  · exact hs

theorem TransmitListOrdered.settleAbort (hs : TransmitListOrdered s) : TransmitListOrdered (settleAbort s) := by
  unfold Machine.settleAbort
  split
  · exact hs.checkTally.returnInHand
  · exact hs.returnInHand.checkTally

/-- The head of the list goes in hand; an event among the two keeps its place (R36, R53). -/
theorem TransmitListOrdered.contest (hs : TransmitListOrdered s) (may : mayContend s = true) :
    TransmitListOrdered (beginContest s) := by
  obtain ⟨-, -, -, listed⟩ := mayContend_iff.1 may
  obtain ⟨e, rest, list⟩ := List.exists_cons_of_ne_nil listed
  have mem (x : TxEntry) (hx : x ∈ rest) : x ∈ s.pub.list := by rw [list]; exact List.mem_cons_of_mem _ hx
  have head : e ∈ s.pub.list := by rw [list]; exact List.mem_cons_self
  have sub : rest.Sublist s.pub.list := by rw [list]; exact List.sublist_cons_self e rest
  have places := hs.places
  rw [placesTaken_eq, list, eventCount_cons] at places
  rw [beginContest_cons list]
  refine ⟨hs.order.sublist sub, fun x hx => hs.cyclic x (mem x hx), hs.once.sublist sub, fun x hx => ?_, ?_, hs.deferred,
    fun quiet => absurd (hs.silent quiet).1 listed, fun fault x hx => ?_⟩
  · rw [← Option.some.inj hx]; exact hs.cyclic e head
  · show eventCount rest + handCount (some e) ≤ 4
    rw [handCount_some]; omega
  · rcases hx with hx | hx
    · exact hs.notices fault x (.inl (mem x hx))
    · rw [← Option.some.inj hx]; exact hs.notices fault e (.inl head)

theorem TransmitListOrdered.linkPart (hs : TransmitListOrdered s) (h : LinkPart s t) : TransmitListOrdered t := by
  cases h with
  | received f whole =>
    obtain ⟨-, -, -, inHand, -⟩ := receiveFrame_fields f s.link
    exact hs.ofLink inHand
  | contends may => exact hs.contest may
  | lost contends => exact (hs.ofLink (l := { s.link with transmitter := .quiet }) rfl).returnInHand
  | aborted aborts => exact (hs.ofLink (l := quietAbort s.link) rfl).settleAbort
  | sent e sends hand =>
    obtain ⟨-, -, -, inHand, -⟩ := holdFrame_fields ⟨.self, e.header, e.seq, e.payload⟩
      { s.link with tally := s.link.tally - 1, transmitter := .quiet, receiver := .hunt, inHand := Option.none }
    exact hs.handEmpty inHand
  | idle | framing | begins | won | faulted | unmuted | headDropped => exact hs.ofLink rfl

/-! ## Start-up's parts -/

/-- The deferred events enqueued one after another (R59): all of them events, in order, beside what stood there. -/
theorem enqueueAll_spec (now : Nat) (l : List TxEntry) (events : ∀ e ∈ l, e.kind = .event) (old : List TxEntry)
    (order : inOrder old) (oldEvents : ∀ e ∈ old, e.kind = .event) :
    inOrder (l.foldl (enqueueDeferred now) old) ∧ (∀ e ∈ l.foldl (enqueueDeferred now) old, e.kind = .event)
      ∧ (l.foldl (enqueueDeferred now) old).length = l.length + old.length := by
  induction l generalizing old with
  | nil => exact ⟨order, oldEvents, (Nat.zero_add _).symm⟩
  | cons x rest ih =>
    have event : ({ x with enqueued := some now } : TxEntry).kind = .event := events x List.mem_cons_self
    obtain ⟨i1, i2, i3⟩ := ih (fun e he => events e (List.mem_cons_of_mem _ he)) (enqueueDeferred now old x)
      (insertNew_inOrder order) fun e he => by
        rcases mem_insertNew.1 he with rfl | he
        · exact event
        · exact oldEvents e he
    refine ⟨i1, i2, ?_⟩
    rw [List.foldl_cons, i3, enqueueDeferred, insertNew_length, List.length_cons]
    omega

theorem onceCyclic_of_events {l : List TxEntry} (events : ∀ e ∈ l, e.kind = .event) : OnceCyclic l := by
  induction l with
  | nil => exact .nil
  | cons x rest ih => exact (ih fun e he => events e (List.mem_cons_of_mem _ he)).cons_event (events x List.mem_cons_self)

theorem eventCount_le_length (l : List TxEntry) : eventCount l ≤ l.length := List.length_filter_le ..

theorem TransmitListOrdered.startPart (hs : TransmitListOrdered s) (h : StartPart s t) : TransmitListOrdered t := by
  cases h with
  | readAgain c =>
    exact ⟨hs.order, hs.cyclic, hs.once, hs.inHand, hs.places, hs.deferred, hs.silent, hs.notices⟩
  | imageFailed code c =>
    refine ⟨.nil, (fun _ h => nomatch h), .nil, (fun _ h => nomatch h), Nat.zero_le 4, ⟨Nat.zero_le 4, fun _ h => nomatch h⟩,
      fun _ => ⟨rfl, rfl⟩, fun _ e he => ?_⟩
    rcases he with he | he <;> cases he
  | imageAccepted m first c =>
    obtain ⟨empty, -⟩ := hs.silent (.inl c)
    have entered : TransmitListOrdered (joined m first s) := by
      constructor <;> simp only [placesTaken_eq, joined_pub, joined_link, joined_station, empty, openLink]
      case order => exact .nil
      case cyclic => exact fun _ h => nomatch h
      case once => exact .nil
      case inHand => exact fun _ h => nomatch h
      case places => exact Nat.zero_le 4
      case deferred => exact hs.deferred
      case silent => exact fun _ => ⟨trivial, trivial⟩
      case notices => exact fun h => nomatch h
    exact entered.dutyMoves (enterJoining_dutyMoves m first s)
  | opened j =>
    obtain ⟨empty, noHand⟩ := hs.silent (.inr j)
    obtain ⟨bound, deferred⟩ := hs.deferred
    obtain ⟨order, events, length⟩ := enqueueAll_spec (ms s) s.pub.deferred deferred [] .nil fun _ h => nomatch h
    obtain ⟨l, hl⟩ : ∃ l, l = s.pub.deferred.foldl (enqueueDeferred (ms s)) [] := ⟨_, rfl⟩
    rw [← hl] at order events length
    have list : (openList s).pub.list = l := by rw [hl, ← empty]; rfl
    have hand : (openList s).link.inHand = none := noHand
    have station : (openList s).loader.station = .operating := rfl
    constructor
    · rw [list]; exact order
    · rw [list]; exact fun e he k => by rw [events e he] at k; cases k
    · rw [list]; exact onceCyclic_of_events events
    · rw [hand]; exact fun e he => nomatch he
    · have count := eventCount_le_length l
      rw [placesTaken_eq, list, hand]
      simp only [handCount, Option.filter_none, Option.toList_none, List.length_nil]
      simp only [List.length_nil] at length
      omega
    · exact ⟨Nat.zero_le 4, fun _ h => nomatch h⟩
    · rw [station]; simp
    · rw [station]; simp

theorem TransmitListOrdered.part (hs : TransmitListOrdered s) (h : Part s t) : TransmitListOrdered t := by
  cases h with
  | passes => exact hs.congr rfl rfl rfl rfl rfl
  | start h => exact hs.startPart h
  | pub h => exact hs.pubPart h
  | link h => exact hs.linkPart h
  | picture h => rw [h.eq]; exact hs.congr rfl rfl rfl rfl rfl
  | arm u h => exact hs.dutyMoves h.armMoves.dutyMoves
  | duty h => exact hs.dutyMoves h.dutyMoves
  | inputs i => exact hs.congr rfl rfl rfl rfl rfl
  | caused c => exact hs.dutyMoves (reportCause_dutyMoves c s)
  | released h => exact hs.dutyMoves (clearCauses_dutyMoves s)
  | flagsCleared => exact hs.congr rfl rfl rfl rfl rfl

theorem TransmitListOrdered.atReset (held : Bool) (address : BitVec 4) : TransmitListOrdered (State.atReset held address) := by
  constructor <;> simp [State.atReset, State.resetLink, State.resetPub, placesTaken]

end

/-- Settles O53: reset leaves the list empty, and every part of a command keeps it in order. -/
theorem transmitListStaysOrdered : Obligations.TransmitListStaysOrdered := fun _ _ hs h =>
  step_keeps TransmitListOrdered.atReset (fun _ k => k.congr rfl rfl rfl rfl rfl) TransmitListOrdered.part hs h

end Sys2Proof.Machine
end

section
/-! PROOFS. Every duty carried holds a claim, and STOP while SAFE, through every part of a command. -/

namespace Sys2Proof.Machine

section
variable {s t : State} {u : ArmUnit}

/-! ## A cause report, by the station it finds (R183) -/

/-- A state with a cause added to its set. -/
def withCause (c : Cause) (s : State) : State := s.withSafe { s.safe with causes := addCause s.safe.causes c }

theorem withCause_isSafe (c : Cause) (s : State) : isSafe (withCause c s) = true := by
  refine (isSafe_iff _).2 ⟨c, ?_⟩
  rw [withCause, State.withSafe_safe, hasCause_addCause]
  simp

theorem withCause_arm (c : Cause) (s : State) (u : ArmUnit) : (withCause c s).arm u = s.arm u := State.withSafe_arm ..

/-- A cause already held changes nothing; a new one is added, makes the entry if the station was not SAFE, and may ask for a
HALT (R183, R185). -/
theorem reportCause_cases (c : Cause) (s : State) : reportCause c s = s
    ∨ isSafe s = true ∧ KeepsAllButPub (withCause c s) (reportCause c s)
    ∨ isSafe s = false ∧ KeepsAllButPub (safeEntry (withCause c s)) (reportCause c s) := by
  have halted (e : State) : KeepsAllButPub e (if ownCause c then requestEvent .halt (haltRecord c) e else e) := by
    split
    · exact requestEvent_frame ..
    · exact .refl e
  unfold reportCause
  dsimp only
  split
  · exact .inl rfl
  · cases safe : isSafe s
    · exact .inr (.inr ⟨rfl, halted _⟩)
    · exact .inr (.inl ⟨rfl, halted _⟩)

/-! ## The invariant -/

theorem ClaimsHeld.congr (hs : ClaimsHeld s) (duties : t.duties = s.duties) (safe : isSafe t = isSafe s)
    (drive : t.drive.claim = s.drive.claim) (arm : ∀ u, (t.arm u).claim = (s.arm u).claim)
    (water : t.water.claim = s.water.claim) (console : t.console.claim = s.console.claim) : ClaimsHeld t := by
  have present (u : ArmUnit) : armPresent t u = armPresent s u := by cases u <;> simp [armPresent, duties]
  obtain ⟨hdrive, harm, hwater, hconsole⟩ := hs
  refine ⟨?_, fun u => ?_, ?_, ?_⟩
  · rw [duties, safe, drive]; exact hdrive
  · rw [present, safe, arm]; exact harm u
  · rw [duties, safe, water]; exact hwater
  · rw [duties, safe, console]; exact hconsole

theorem ClaimsHeld.ofPub (hs : ClaimsHeld s) (h : KeepsAllButPub s t) : ClaimsHeld t :=
  hs.congr h.duties (isSafe_of_safe h.safe) (by rw [h.drive]) (fun u => by rw [h.arm]) (by rw [h.water]) (by rw [h.console])

/-- A claim just formed is held, and the SAFE claim while SAFE (R68). -/
theorem formClaim_held (s : State) (own : Claim) :
    (some (formClaim s own)).isSome = true ∧ (isSafe s = true → some (formClaim s own) = some safeClaim) :=
  ⟨rfl, fun safe => by rw [formClaim_safe safe]⟩

/-- One arm unit's claim formed anew or kept keeps all claims. -/
theorem ClaimsHeld.armClaim (hs : ClaimsHeld s) (frame : KeepsAllButArm u s t)
    (claim : (t.arm u).claim = (s.arm u).claim ∨ ∃ own, (t.arm u).claim = some (formClaim s own)) : ClaimsHeld t := by
  have safe := frame.isSafe_eq
  obtain ⟨hdrive, harm, hwater, hconsole⟩ := hs
  refine ⟨?_, fun v => ?_, ?_, ?_⟩
  · rw [frame.duties, safe, frame.drive]; exact hdrive
  · rw [frame.armPresent_eq, safe]
    by_cases e : v = u
    · subst e
      rcases claim with kept | ⟨own, formed⟩
      · rw [kept]; exact harm v
      · rw [formed]; exact fun _ => formClaim_held s own
    · rw [frame.other v e]; exact harm v
  · rw [frame.duties, safe, frame.water]; exact hwater
  · rw [frame.duties, safe, frame.console]; exact hconsole

theorem ClaimsHeld.armMoves (hs : ClaimsHeld s) (h : ArmMoves u s t) : ClaimsHeld t := by
  induction h with
  | refl => exact hs
  | tail _ step ih =>
    cases step with
    | holds x kept => exact ih.armClaim (.withArm ..) (.inl (by rw [State.withArm_arm_same, kept]))
    | claims => exact ih.armClaim (setArmClaim_frame ..) (.inr ⟨_, by rw [setArmClaim, State.withArm_arm_same]⟩)
    | checks => exact ih.ofPub (checkUrgency_frame _)
    | asks => exact ih.ofPub (requestCyclic_frame ..)

/-- Every present duty's claim formed anew: whatever stood before, all claims are held (R68). -/
theorem claimsHeld_setAllClaims (s : State) : ClaimsHeld (setAllClaims s) := by
  have frame := setAllClaims_frame s
  have safe : isSafe (setAllClaims s) = isSafe s := isSafe_of_safe (setAllClaims_safe s)
  refine ⟨fun p => ?_, fun u p => ?_, fun p => ?_, fun p => ?_⟩
  · rw [frame.duties] at p
    rw [setAllClaims_drive, safe, p]
    exact formClaim_held ..
  · rw [frame.armPresent_eq] at p
    rw [setAllClaims_arm, safe, p]
    exact formClaim_held ..
  · rw [frame.duties] at p
    rw [setAllClaims_water, safe, p]
    exact formClaim_held ..
  · rw [frame.duties] at p
    rw [setAllClaims_console, safe, p]
    exact formClaim_held ..

theorem ClaimsHeld.withDrive (hs : ClaimsHeld s) {d : Drive}
    (claim : d.claim = s.drive.claim ∨ ∃ own, d.claim = some (formClaim s own)) : ClaimsHeld (s.withDrive d) := by
  refine ⟨fun p => ?_, fun u p => ?_, hs.water, hs.console⟩
  · rcases claim with kept | ⟨own, formed⟩
    · rw [State.withDrive_drive, kept]; exact hs.drive p
    · rw [State.withDrive_drive, formed]; exact formClaim_held s own
  · rw [armPresent_withDrive] at p
    rw [State.withDrive_arm, isSafe_withDrive]; exact hs.arm u p

theorem ClaimsHeld.withWater (hs : ClaimsHeld s) {w : Water}
    (claim : w.claim = s.water.claim ∨ ∃ own, w.claim = some (formClaim s own)) : ClaimsHeld (s.withWater w) := by
  refine ⟨hs.drive, fun u p => ?_, fun p => ?_, hs.console⟩
  · rw [armPresent_withWater] at p
    rw [State.withWater_arm, isSafe_withWater]; exact hs.arm u p
  · rcases claim with kept | ⟨own, formed⟩
    · rw [State.withWater_water, kept]; exact hs.water p
    · rw [State.withWater_water, formed]; exact formClaim_held s own

theorem enterWater_claim (now : Nat) (st : WaterState) (w : Water) : (enterWater now st w).claim = w.claim := by
  unfold enterWater
  dsimp only
  split <;> rfl

theorem ClaimsHeld.changeWater (hs : ClaimsHeld s) (st : WaterState) : ClaimsHeld (changeWater st s) := by
  have entered : ClaimsHeld (s.withWater (enterWater s.micros st s.water)) := hs.withWater (.inl (enterWater_claim ..))
  have claimed : ClaimsHeld (setWaterClaim (s.withWater (enterWater s.micros st s.water))) :=
    entered.withWater (.inr ⟨_, rfl⟩)
  exact (claimed.ofPub (checkUrgency_frame _)).ofPub (requestCyclic_frame ..)

theorem ClaimsHeld.safeWater (hs : ClaimsHeld s) : ClaimsHeld (safeWater s) := by
  have inactive : ClaimsHeld (s.withWater { s.water with active := false }) := hs.withWater (.inl rfl)
  unfold Machine.safeWater
  split
  · exact inactive.changeWater .off
  · exact inactive.changeWater .off
  · exact inactive.changeWater .off
  · exact inactive
  · exact inactive
  · exact inactive

/-- Whatever stood before, a SAFE entry leaves every duty with its claim (R68, R184). -/
theorem claimsHeld_safeEntry (s : State) : ClaimsHeld (safeEntry s) := by
  have claimed := (claimsHeld_setAllClaims s).ofPub (checkUrgency_frame _)
  have driven : ClaimsHeld ((checkUrgency (setAllClaims s)).withDrive (safeDrive (checkUrgency (setAllClaims s)).drive)) :=
    claimed.withDrive (.inl rfl)
  have moved := (driven.armMoves (faultEvent_armMoves .a .stationSafe _)).armMoves (faultEvent_armMoves .b .stationSafe _)
  unfold safeEntry
  dsimp only
  cases s.duties.water
  · exact moved
  · exact moved.safeWater

theorem ClaimsHeld.reportCause (hs : ClaimsHeld s) (c : Cause) : ClaimsHeld (reportCause c s) := by
  rcases reportCause_cases c s with h | ⟨safe, frame⟩ | ⟨-, frame⟩
  · rw [h]; exact hs
  · have added : ClaimsHeld (withCause c s) :=
      hs.congr rfl ((withCause_isSafe c s).trans safe.symm) rfl (fun u => by rw [withCause_arm]) rfl rfl
    exact added.ofPub frame
  · exact (claimsHeld_safeEntry _).ofPub frame

theorem ClaimsHeld.ofLink (hs : ClaimsHeld s) (l : Link) : ClaimsHeld (s.withLink l) :=
  hs.congr rfl rfl rfl (fun _ => by rw [State.withLink_arm]) rfl rfl

theorem ClaimsHeld.returnInHand (hs : ClaimsHeld s) : ClaimsHeld (returnInHand s) := by
  rcases returnInHand_cases s with ⟨-, h⟩ | ⟨e, -, h⟩ <;> rw [h]
  · exact hs
  · exact (hs.ofLink _).ofPub (returnFrame_frame ..)

theorem ClaimsHeld.checkTally (hs : ClaimsHeld s) : ClaimsHeld (checkTally s) := by
  unfold Machine.checkTally
  split
  · exact (hs.ofLink (mutedLink (ms s) s.link)).reportCause .linkMute
  · exact hs

theorem ClaimsHeld.settleAbort (hs : ClaimsHeld s) : ClaimsHeld (settleAbort s) := by
  unfold Machine.settleAbort
  split
  · exact hs.checkTally.returnInHand
  · exact hs.returnInHand.checkTally

theorem ClaimsHeld.linkPart (hs : ClaimsHeld s) (h : LinkPart s t) : ClaimsHeld t := by
  cases h with
  | contends may =>
    obtain ⟨-, -, -, listed⟩ := mayContend_iff.1 may
    obtain ⟨e, rest, list⟩ := List.exists_cons_of_ne_nil listed
    rw [beginContest_cons list]
    exact (hs.ofPub (.withPub ..)).ofLink _
  | lost contends => exact (hs.ofLink _).returnInHand
  | aborted aborts => exact (hs.ofLink _).settleAbort
  | idle | framing | received | begins | won | faulted | unmuted | sent | headDropped => exact hs.ofLink _

/-- Every duty that the image gives starts with its claim (R201). -/
theorem claimsHeld_enterJoining (m : Image) (first : Vector Permille 4) (s : State) : ClaimsHeld (enterJoining m first s) := by
  obtain ⟨j, hj⟩ : ∃ j, j = joined m first s := ⟨_, rfl⟩
  have frame : KeepsAllButDuties j (enterJoining m first s) := hj ▸ enterJoining_frame m first s
  have safe : isSafe (enterJoining m first s) = isSafe j := by
    rw [enterJoining_eq, ← hj]; exact isSafe_of_safe (startDuties_safe j)
  refine ⟨fun p => ?_, fun u p => ?_, fun p => ?_, fun p => ?_⟩
  · rw [frame.duties] at p
    rw [safe, enterJoining_eq, ← hj, startDuties_drive, if_pos p]
    exact formClaim_held ..
  · rw [frame.armPresent_eq] at p
    rw [safe, enterJoining_eq, ← hj, startDuties_arm, if_pos p]
    exact formClaim_held ..
  · rw [frame.duties] at p
    rw [safe, enterJoining_eq, ← hj, startDuties_water, if_pos p]
    exact formClaim_held ..
  · rw [frame.duties] at p
    rw [safe, enterJoining_eq, ← hj, startDuties_console, if_pos p]
    exact formClaim_held ..

theorem ClaimsHeld.startPart (hs : ClaimsHeld s) (h : StartPart s t) : ClaimsHeld t := by
  cases h with
  | imageAccepted m first c => exact claimsHeld_enterJoining m first s
  | readAgain | imageFailed | opened => exact hs.congr rfl rfl rfl (fun u => by cases u <;> rfl) rfl rfl

theorem ClaimsHeld.dutyPart (hs : ClaimsHeld s) (h : DutyPart s t) : ClaimsHeld t := by
  cases h with
  | waterStopped p fault =>
    have entered : ClaimsHeld (s.withWater (enterWater s.micros .off s.water)) := hs.withWater (.inl (enterWater_claim ..))
    exact entered.withWater (.inr ⟨_, rfl⟩)
  | driveClaimed p => exact hs.withDrive (.inr ⟨_, rfl⟩)
  | driveWorked expiry p =>
    obtain ⟨-, -, -, -, kept⟩ := worked_taken (p := s.params.drive) (i := driveInputs s) (pace := paceRun s) (now := s.micros)
      (expiry := expiry) (d := s.drive) rfl
    exact hs.withDrive (.inl kept)
  | waterWorked expiry p r => exact hs.withWater (.inr ⟨_, rfl⟩)
  | console c kept => exact hs.congr rfl rfl rfl (fun _ => by rw [State.withConsole_arm]) rfl kept

theorem ClaimsHeld.part (hs : ClaimsHeld s) (h : Part s t) : ClaimsHeld t := by
  cases h with
  | passes => exact hs.congr rfl rfl rfl (fun u => by cases u <;> rfl) rfl rfl
  | start h => exact hs.startPart h
  | pub h => exact hs.ofPub h.frame
  | link h => exact hs.linkPart h
  | picture h => rw [h.eq]; exact hs.congr rfl rfl rfl (fun _ => by rw [State.withPicture_arm]) rfl rfl
  | arm u h => exact hs.armMoves h.armMoves
  | duty h => exact hs.dutyPart h
  | inputs i => exact hs.congr rfl rfl rfl (fun _ => by rw [State.withInputs_arm]) rfl rfl
  | caused c => exact hs.reportCause c
  | released h => exact claimsHeld_setAllClaims _
  | flagsCleared => exact hs.congr rfl rfl rfl (fun u => by cases u <;> rfl) rfl rfl

theorem ClaimsHeld.atReset (held : Bool) (address : BitVec 4) : ClaimsHeld (State.atReset held address) :=
  ⟨(fun p => nomatch p), (fun u p => by cases u <;> cases p), (fun p => nomatch p), (fun p => nomatch p)⟩

end

/-- Settles O59: no duty is carried at reset, and every part of a command keeps the claims. -/
theorem claimsStayHeld : Obligations.ClaimsStayHeld := fun _ _ hs h =>
  step_keeps ClaimsHeld.atReset (fun _ k => k.congr rfl rfl rfl (fun u => by cases u <;> rfl) rfl rfl) ClaimsHeld.part hs h

end Sys2Proof.Machine
end

section
/-! PROOFS. The drive and SAFE entry's effect on it: the drive stays within its bounds through every part of a command. -/

namespace Sys2Proof.Machine

section
variable {s t : State} {u : ArmUnit} {p : DriveParams}

/-! ## What SAFE entry makes of the drive (R68, R90) -/

theorem safeEntry_drive (s : State) : (safeEntry s).drive = safeDrive (setAllClaims s).drive := by
  have arms (q : State) : (faultEvent .b .stationSafe (faultEvent .a .stationSafe q)).drive = q.drive :=
    (faultEvent_frame ..).drive.trans (faultEvent_frame ..).drive
  have driven : (faultEvent .b .stationSafe (faultEvent .a .stationSafe
      ((checkUrgency (setAllClaims s)).withDrive (safeDrive (checkUrgency (setAllClaims s)).drive)))).drive
        = safeDrive (setAllClaims s).drive := by
    rw [arms, State.withDrive_drive, (checkUrgency_frame _).drive]
  unfold safeEntry
  dsimp only
  exact (whenPresent_keeps State.drive safeWater_drive _ _).trans driven

/-! ## The bounds -/

/-- The drive's bounds read neither its claim nor its timers. -/
theorem DriveBounded.congr {d e : Drive} (h : DriveBounded p d) (state : e.state = d.state) (direction : e.direction = d.direction)
    (mode : e.mode = d.mode) (v : e.v = d.v) (vm : e.vm = d.vm) (a1 : e.a1 = d.a1) (dd : e.d = d.d)
    (fwd : e.fwdDuty = d.fwdDuty) (rev : e.revDuty = d.revDuty) (brake : e.brakeOn = d.brakeOn) : DriveBounded p e := by
  obtain ⟨h1, h2, h3, h4, h5, h6, h7, h8⟩ := h
  constructor <;> simp only [state, direction, mode, v, vm, a1, dd, fwd, rev, brake] <;> assumption

theorem DriveBounded.withClaim {d : Drive} (h : DriveBounded p d) (c : Option Claim) : DriveBounded p { d with claim := c } :=
  h.congr rfl rfl rfl rfl rfl rfl rfl rfl rfl rfl

/-- A drive at rest is within every bounds. -/
theorem driveBounded_of_rest {d : Drive} (still : driveMoves d.state = false) (v : d.v = 0) (vm : d.vm ≤ 6000) (a1 : d.a1 = 0)
    (dd : d.d = 0) (fwd : d.fwdDuty = 0) (rev : d.revDuty = 0) (brake : d.brakeOn = false) : DriveBounded p d where
  speed := by rw [v]; exact Nat.zero_le _
  measured := vm
  displacement := by rw [dd]; exact Nat.zero_le _
  accumulator := by rw [a1]; omega
  rest _ := ⟨v, a1, dd, fwd, rev⟩
  forward moves := by rw [still] at moves; cases moves
  reverse moves := by rw [still] at moves; cases moves
  brake := by rw [still]; exact brake

theorem driveBounded_resetDrive (address : BitVec 4) : DriveBounded p (State.resetDrive address) :=
  driveBounded_of_rest rfl rfl (Nat.zero_le _) rfl rfl rfl rfl rfl

/-- SAFE entry sends a RUNNING drive HALTING, which moves as it did, and a STANDING one HELD, which rests as it did (R90). -/
theorem DriveBounded.safeDrive {d : Drive} (h : DriveBounded p d) : DriveBounded p (safeDrive d) := by
  obtain ⟨h1, h2, h3, h4, h5, h6, h7, h8⟩ := h
  have moves : driveMoves (Machine.safeDrive d).state = driveMoves d.state := by
    unfold Machine.safeDrive
    cases d.state <;> rfl
  exact ⟨h1, h2, h3, h4, fun k => h5 (moves ▸ k), fun k => h6 (moves ▸ k), fun k => h7 (moves ▸ k), h8.trans moves.symm⟩

/-- The mode in use is one whose maximum the speed does not pass (R84). -/
theorem speed_le_nextMode {d : Drive} {i : DriveInputs} (h : d.v ≤ modeMax p d.mode d.direction) :
    d.v ≤ modeMax p (nextMode p d i) d.direction := by
  unfold nextMode
  split
  · assumption
  · exact h

/-- A drive period keeps the drive within its bounds (R94, R96, R97, R99, R100, R102). -/
theorem DriveBounded.worked {i : DriveInputs} {pace : PaceResult} {now expiry : Nat} {next : Option Nat} {d w : Drive}
    (h : DriveBounded p d) (hw : w = { driveWork p i pace now expiry d with due := next }) (pedal : i.pedal ≤ 1000)
    (measured : i.vm ≤ 6000) : DriveBounded p w := by
  obtain ⟨mode, vm, -⟩ := worked_taken hw
  have brake : w.brakeOn = driveMoves w.state := by rw [hw]; rfl
  cases moves : driveMoves w.state with
  | false =>
    obtain ⟨v, a1, dd, fwd, rev⟩ := worked_rest hw moves
    exact driveBounded_of_rest moves v (vm ▸ measured) a1 dd fwd rev (brake.trans moves)
  | true =>
    obtain ⟨v, reached, fwd, rev⟩ := worked_moving hw moves
    obtain ⟨hd, ha1⟩ := Prod.mk.inj reached
    have direction : w.direction = d.direction := by
      rw [worked_direction hw, if_neg (by intro standing; rw [standing] at moves; cases moves)]
    constructor
    · have old := speed_le_nextMode (i := i) h.speed
      have asked := requestedSpeed_le p w.mode d.direction pedal
      have target := driveTarget_le w.state (i.request != d.direction) (requestedSpeed p w.mode d.direction i.pedal) w.pace.ceiling
      have ramped := ramp_le d.v (driveTarget w.state (i.request != d.direction) (requestedSpeed p w.mode d.direction i.pedal)
        w.pace.ceiling) (rampStep p.aUp) (rampStep (deceleration p w.state w.pace.urgency w.pace.ceiling d.v))
      rw [← v] at ramped
      rw [← mode] at old
      rw [direction]
      omega
    · rw [vm]; exact measured
    · rw [hd]; exact displacement_le ..
    · rw [ha1]; exact displacement_a1 _ _ _ _ _ _ h.accumulator
    · intro still; rw [moves] at still; cases still
    · intro _ forward; rw [fwd, rev, forward]; exact ⟨rfl, rfl⟩
    · intro _ reverse; rw [fwd, rev, reverse]; exact ⟨rfl, rfl⟩
    · exact brake

theorem driveInputs_pedal_le (s : State) : (driveInputs s).pedal ≤ 1000 := by
  unfold driveInputs
  dsimp only
  split
  · exact Nat.min_le_left ..
  · exact Nat.zero_le _

/-! ## The invariant -/

/-- A station that carries its duties only, with its drive within its bounds. -/
structure DriveKept (s : State) : Prop where
  carried : CarriedDutiesOnly s
  bounded : DriveBounded s.params.drive s.drive

theorem DriveKept.drive_of_frame (hs : DriveKept s) (params : t.params = s.params) (drive : t.drive = s.drive) :
    DriveBounded t.params.drive t.drive := by rw [params, drive]; exact hs.bounded

theorem reportCause_driveBounded (c : Cause) (h : DriveBounded s.params.drive s.drive) :
    DriveBounded (reportCause c s).params.drive (reportCause c s).drive := by
  rw [(reportCause_frame c s).params]
  rcases reportCause_cases c s with same | ⟨-, frame⟩ | ⟨-, frame⟩
  · rw [same]; exact h
  · rw [frame.drive]; exact h
  · rw [frame.drive, safeEntry_drive, setAllClaims_drive]
    exact (h.withClaim _).safeDrive

theorem checkTally_driveBounded (h : DriveBounded s.params.drive s.drive) :
    DriveBounded (checkTally s).params.drive (checkTally s).drive := by
  unfold checkTally
  split
  · exact reportCause_driveBounded .linkMute (s := s.withLink (mutedLink (ms s) s.link)) h
  · exact h

theorem returnInHand_driveBounded (h : DriveBounded s.params.drive s.drive) :
    DriveBounded (returnInHand s).params.drive (returnInHand s).drive := by
  rcases returnInHand_cases s with ⟨-, same⟩ | ⟨e, -, same⟩ <;> rw [same]
  · exact h
  · rw [(returnFrame_frame ..).params, (returnFrame_frame ..).drive]; exact h

theorem linkPart_driveBounded (hs : DriveBounded s.params.drive s.drive) (h : LinkPart s t) :
    DriveBounded t.params.drive t.drive := by
  cases h with
  | contends may =>
    obtain ⟨-, -, -, listed⟩ := mayContend_iff.1 may
    obtain ⟨e, rest, list⟩ := List.exists_cons_of_ne_nil listed
    rw [beginContest_cons list]
    exact hs
  | lost contends =>
    exact returnInHand_driveBounded (s := s.withLink { s.link with transmitter := .quiet }) hs
  | aborted aborts =>
    have quiet : DriveBounded (onLink quietAbort s).params.drive (onLink quietAbort s).drive := hs
    unfold settleAbort
    split
    · exact returnInHand_driveBounded (checkTally_driveBounded quiet)
    · exact checkTally_driveBounded (returnInHand_driveBounded quiet)
  | idle | framing | received | begins | won | faulted | unmuted | sent | headDropped => exact hs

theorem startPart_driveBounded (hs : DriveKept s) (h : StartPart s t) : DriveBounded t.params.drive t.drive := by
  cases h with
  | imageAccepted m first c =>
    obtain ⟨-, drive, -⟩ := hs.carried.configuring c
    rw [enterJoining_eq, startDuties_drive]
    split
    · exact (driveBounded_resetDrive (joined m first s).loader.address).congr rfl rfl rfl rfl rfl rfl rfl rfl rfl rfl
    · rw [joined_drive, drive]; exact driveBounded_resetDrive _
  | readAgain | imageFailed | opened => exact hs.bounded

theorem dutyPart_driveBounded (hs : DriveBounded s.params.drive s.drive) (h : DutyPart s t) :
    DriveBounded t.params.drive t.drive := by
  cases h with
  | driveClaimed p => exact hs.withClaim _
  | driveWorked expiry p => exact hs.worked rfl (driveInputs_pedal_le s) (Nat.min_le_left ..)
  | waterStopped | waterWorked | console => exact hs

theorem DriveKept.part (hs : DriveKept s) (h : Part s t) : DriveKept t := by
  refine ⟨hs.carried.part h, ?_⟩
  cases h with
  | passes => exact hs.bounded
  | start h => exact startPart_driveBounded hs h
  | pub h => exact hs.drive_of_frame h.frame.params h.frame.drive
  | link h => exact linkPart_driveBounded hs.bounded h
  | picture h => rw [h.eq]; exact hs.bounded
  | arm u h => exact hs.drive_of_frame h.frame.params h.frame.drive
  | duty h => exact dutyPart_driveBounded hs.bounded h
  | inputs i => exact hs.bounded
  | caused c => exact reportCause_driveBounded c hs.bounded
  | released h =>
    rw [(clearCauses_frame s).params, clearCauses, setAllClaims_drive]
    exact hs.bounded.withClaim _
  | flagsCleared => exact hs.bounded

end

/-- Settles O57: the drive at reset rests, and every part of a command keeps it within its bounds. -/
theorem driveStaysBounded : Obligations.DriveStaysBounded := fun _ _ carried bounded h =>
  (step_keeps (P := DriveKept) (fun held address => ⟨.atReset held address, driveBounded_resetDrive address⟩)
    (fun _ k => ⟨k.carried.congr rfl rfl rfl (fun u => by cases u <;> rfl) rfl, k.bounded⟩) DriveKept.part
    ⟨carried, bounded⟩ h).bounded

end Sys2Proof.Machine
end

section
/-! PROOFS. Both arm units stay within their bounds, through every part of a command. -/

namespace Sys2Proof.Machine

section
variable {s t : State} {u : ArmUnit} {p : ArmParams} {a b : Arm}

/-! ## What the bounds read -/

/-- An arm's bounds read its state, its list, its brush, its load factor and its cause. -/
structure SameBounds (a b : Arm) : Prop where
  state : b.state = a.state
  list : b.list = a.list
  remaining : b.remaining = a.remaining
  deadline : b.deadline = a.deadline
  record : b.record = a.record
  engaged : b.engaged = a.engaged
  target : b.target = a.target
  trim : b.trim = a.trim
  pwm : b.pwm = a.pwm
  load : b.load = a.load
  loadDue : b.loadDue = a.loadDue
  cause : b.cause = a.cause

theorem brushRuns_congr (state : b.state = a.state) (engaged : b.engaged = a.engaged) : brushRuns b = brushRuns a := by
  unfold brushRuns; rw [state, engaged]

theorem ArmBounded.congr (h : ArmBounded p a) (same : SameBounds a b) : ArmBounded p b := by
  obtain ⟨state, list, remaining, deadline, record, engaged, target, trim, pwm, load, loadDue, cause⟩ := same
  obtain ⟨h1, h2, h3, h4, h5, h6, h7, h8, h9, h10, h11⟩ := h
  constructor <;> simp only [state, list, remaining, deadline, record, engaged, target, trim, pwm, load, loadDue, cause,
    brushRuns_congr state engaged] <;> assumption

theorem ArmBounded.noCause (h : ArmBounded p a) (notFault : a.state ≠ .fault) : a.cause = .none :=
  Classical.byContradiction fun k => notFault (h.cause.2 k)

theorem state_ne_fault_of_active (h : armActive a = true) : a.state ≠ .fault ∧ a.state ≠ .stowed := by
  simp only [armActive, Bool.and_eq_true, bne_iff_ne, ne_eq] at h
  exact ⟨h.2, h.1⟩

/-! ## Out of FAULT (R141) -/

/-- An entry to a state reads the state it comes from only in whether the brush ran. -/
theorem enterState_from (nowUs nowMs : Nat) (st old : ArmState) (same : brushRuns { a with state := old } = brushRuns a) :
    enterState p nowUs nowMs st { a with state := old } = enterState p nowUs nowMs st a := by
  unfold enterState
  rw [same]

theorem startList_from (st old : ArmState) (l : ListName) (same : brushRuns { a with state := old } = brushRuns a) :
    startList u st l (s.withArm u { a with state := old }) = startList u st l (s.withArm u a) := by
  have loaded : changeArm u st (s.withArm u (loadList (armParams s u) l { a with state := old }))
      = changeArm u st (s.withArm u (loadList (armParams s u) l a)) := by
    have entered := enterState_from (p := armParams s u) (a := loadList (armParams s u) l a) s.micros (ms s) st old same
    unfold changeArm
    simp only [State.withArm_arm_same, State.withArm_withArm, armParams_withArm, State.withArm_micros, ms_withArm]
    exact congrArg (fun x => reformArmClaim u (s.withArm u x)) entered
  unfold startList
  simp only [State.withArm_arm_same, State.withArm_withArm, armParams_withArm, loaded]

/-- A freed arm goes into RETRACTING as an arm would that was there before with its brush at rest (R141). -/
theorem freeArm_eq (fault : (s.arm u).state = .fault) :
    freeArm u s = startRetract u (s.withArm u { s.arm u with cause := .none, state := .retracting }) := by
  have still : brushRuns { s.arm u with cause := .none, state := .retracting } = brushRuns { s.arm u with cause := .none } := by
    simp [brushRuns, fault]
  have same := startList_from (s := s) (u := u) (a := { s.arm u with cause := .none }) .retracting .retracting .retract still
  unfold freeArm startRetract
  rw [same]

theorem freedArm_sound (h : ArmBounded p a) (fault : a.state = .fault) :
    ArmSound p { a with cause := .none, state := .retracting } := by
  have still : brushRuns a = false := by simp [brushRuns, fault]
  have rests : brushRuns { a with cause := .none, state := .retracting } = false := by simp [brushRuns]
  refine ⟨⟨fun _ => h.still still, (fun k => by rw [rests] at k; cases k), h.trim⟩, h.load, by simp, by simp, ?_⟩
  have window := h.window
  rw [fault] at window
  simpa using window

theorem freeArm_spec (h : ArmBounded (armParams s u) (s.arm u)) (fault : (s.arm u).state = .fault) :
    ledTo u s (freeArm u s) [.retracting, .stowed] := by
  have k := startRetract_spec u (s.withArm u { s.arm u with cause := .none, state := .retracting })
    (by rw [armParams_withArm, State.withArm_arm_same]; exact freedArm_sound h fault) (by rw [State.withArm_arm_same])
  rw [freeArm_eq fault]
  unfold ledTo at *
  rw [armParams_withArm] at k
  exact k

/-! ## An arm part -/

/-- The claim formed anew, and nothing else of the arm moved (R145). -/
theorem reformArmClaim_arm (u : ArmUnit) (s : State) : (reformArmClaim u s).arm u =
    { s.arm u with claim := some (formClaim s (armOwnClaim (armParams s u) (s.arm u))) } := by
  unfold reformArmClaim
  rw [(checkUrgency_frame _).arm, setArmClaim, State.withArm_arm_same]

theorem loadWindow_arm (u : ArmUnit) (expiry : Nat) (s : State) : ∃ load,
    (load = (s.arm u).load ∨ load = nextLoad (fnValue s (brushFn u)) (s.arm u).target (s.arm u).load)
    ∧ (loadWindow u expiry s).arm u = { s.arm u with
      load := load
      loadDue := some (expiry + 500)
      claim := ((loadWindow u expiry s).arm u).claim } := by
  unfold loadWindow
  dsimp only
  obtain ⟨load, hload⟩ : ∃ load, load = (if brushMeasured s u then nextLoad (fnValue s (brushFn u)) (s.arm u).target (s.arm u).load
    else (s.arm u).load) := ⟨_, rfl⟩
  have choice : load = (s.arm u).load ∨ load = nextLoad (fnValue s (brushFn u)) (s.arm u).target (s.arm u).load := by
    rw [hload]; split
    · exact .inr rfl
    · exact .inl rfl
  rw [← hload]
  split
  · exact ⟨load, choice, by rw [State.withArm_arm_same]⟩
  · exact ⟨load, choice, by rw [reformArmClaim_arm, State.withArm_arm_same]⟩

theorem ArmBounded.armPart (h : ArmBounded (armParams s u) (s.arm u)) (part : ArmPart u s t) :
    ArmBounded (armParams s u) (t.arm u) := by
  have led {r : State} {l : List ArmState} (k : ledTo u s r l) : ArmBounded (armParams s u) (r.arm u) := by
    obtain ⟨bounded, -⟩ := k
    exact bounded
  cases part with
  | read expiry p => rw [readArm, State.withArm_arm_same]; exact h.congr (by constructor <;> rfl)
  | deflect x => rw [State.withArm_arm_same]; exact h.congr (by constructor <;> rfl)
  | noted x p runs =>
    rw [State.withArm_arm_same]
    exact ⟨h.list, h.remaining, h.resting, fun k => absurd k runs, h.still, h.turning, h.trim, h.load, h.cause, h.stowed, h.window⟩
  | completes p runs => exact led (completeStep_spec u s h runs)
  | faults c n =>
    rcases faultEvent_cases u c s with same | ⟨-, -, same⟩ <;> rw [same]
    · exact h
    · obtain ⟨bounded, -⟩ := faultArm_spec u c s n h.load
      exact bounded
  | freed p fault f j => exact led (freeArm_spec h fault)
  | ready p =>
    rw [State.withArm_arm_same]
    exact ⟨h.list, h.remaining, h.resting, h.idle, h.still, h.turning, h.trim, by simp, h.cause, h.stowed, h.window⟩
  | deploys p o f from_ =>
    have notFault : (s.arm u).state ≠ .fault := by rcases from_ with e | e <;> rw [e] <;> decide
    exact led (startDeploy_spec u s h.sound (h.noCause notFault))
  | retracts active => exact led (startRetract_spec u s h.sound (h.noCause (state_ne_fault_of_active active).1))
  | yields active => exact led (startYield_spec u s h.sound (h.noCause (state_ne_fault_of_active active).1))
  | resumes active => exact led (startResume_spec u s h.sound (h.noCause (state_ne_fault_of_active active).1))
  | brushed p =>
    have only := periodBrush_only (armParams s u) s.micros (fnState s (brushFn u)) (fnValue s (brushFn u)) (s.arm u)
    have formed := periodBrush_formed (p := armParams s u) (a := s.arm u) s.micros (fnState s (brushFn u)) (fnValue s (brushFn u))
    rw [formBrush, State.withArm_arm_same]
    refine ⟨?_, ?_, ?_, ?_, formed.still, formed.turning, formed.trim, ?_, ?_, ?_, ?_⟩
    · rw [only.list, only.state]; exact h.list
    · rw [only.list, only.remaining]; exact h.remaining
    · rw [only.list, only.remaining]; exact h.resting
    · rw [only.list, only.deadline, only.record]; exact h.idle
    · rw [only.load]; exact h.load
    · rw [only.state, only.cause]; exact h.cause
    · rw [only.state, only.engaged]; exact h.stowed
    · rw [only.state, only.loadDue]; exact h.window
  | window expiry p sweeping =>
    obtain ⟨load, choice, same⟩ := loadWindow_arm u expiry s
    have bounds : 40 ≤ load ∧ load ≤ 100 := by
      rcases choice with rfl | rfl
      · exact h.load
      · exact nextLoad_bounds h.load
    rw [same]
    exact ⟨h.list, h.remaining, h.resting, h.idle, h.still, h.turning, h.trim, bounds, h.cause, h.stowed,
      ⟨fun _ => sweeping, fun _ => rfl⟩⟩

/-! ## The invariant -/

/-- A station that carries its duties only, with both arm units within their bounds. -/
structure ArmsKept (s : State) : Prop where
  carried : CarriedDutiesOnly s
  bounded : ∀ u, ArmBounded (armParams s u) (s.arm u)

theorem armParams_congr (h : t.params = s.params) (u : ArmUnit) : armParams t u = armParams s u := by
  cases u <;> simp [armParams, h]

/-- Both units within their bounds, in a state that holds them with the fields the bounds read. -/
theorem armsBounded_congr (hs : ∀ u, ArmBounded (armParams s u) (s.arm u)) (params : t.params = s.params)
    (same : ∀ u, SameBounds (s.arm u) (t.arm u)) : ∀ u, ArmBounded (armParams t u) (t.arm u) := fun u => by
  rw [armParams_congr params]
  exact (hs u).congr (same u)

theorem SameBounds.of_eq (h : b = a) : SameBounds a b := by subst h; constructor <;> rfl

theorem armsBounded_of_eq (hs : ∀ u, ArmBounded (armParams s u) (s.arm u)) (params : t.params = s.params)
    (arm : ∀ u, t.arm u = s.arm u) : ∀ u, ArmBounded (armParams t u) (t.arm u) :=
  armsBounded_congr hs params fun u => .of_eq (arm u)

theorem armsBounded_armPart (hs : ∀ u, ArmBounded (armParams s u) (s.arm u)) (h : ArmPart u s t) :
    ∀ v, ArmBounded (armParams t v) (t.arm v) := fun v => by
  have frame := h.frame
  rw [frame.armParams_eq]
  by_cases e : v = u
  · subst e; exact (hs v).armPart h
  · rw [frame.other v e]; exact hs v

theorem armsBounded_setAllClaims (hs : ∀ u, ArmBounded (armParams s u) (s.arm u)) :
    ∀ u, ArmBounded (armParams (setAllClaims s) u) ((setAllClaims s).arm u) :=
  armsBounded_congr hs (setAllClaims_frame s).params fun u => by rw [setAllClaims_arm]; constructor <;> rfl

theorem armsBounded_safeEntry (hs : ∀ u, ArmBounded (armParams s u) (s.arm u)) :
    ∀ u, ArmBounded (armParams (safeEntry s) u) ((safeEntry s).arm u) := by
  have urgency := checkUrgency_frame (setAllClaims s)
  have claimed := armsBounded_of_eq (armsBounded_setAllClaims hs) urgency.params urgency.arm
  have driven := armsBounded_of_eq (t := (checkUrgency (setAllClaims s)).withDrive (safeDrive (checkUrgency (setAllClaims s)).drive))
    claimed rfl fun _ => State.withDrive_arm ..
  have moved := armsBounded_armPart (armsBounded_armPart driven (.faults (u := .a) .stationSafe (by decide)))
    (.faults (u := .b) .stationSafe (by decide))
  unfold safeEntry
  dsimp only
  cases s.duties.water
  · exact moved
  · exact armsBounded_of_eq moved (safeWater_frame _).params fun u => safeWater_arm u _

theorem armsBounded_reportCause (c : Cause) (hs : ∀ u, ArmBounded (armParams s u) (s.arm u)) :
    ∀ u, ArmBounded (armParams (reportCause c s) u) ((reportCause c s).arm u) := by
  have added : ∀ u, ArmBounded (armParams (withCause c s) u) ((withCause c s).arm u) :=
    armsBounded_of_eq hs rfl (withCause_arm c s)
  rcases reportCause_cases c s with same | ⟨-, frame⟩ | ⟨-, frame⟩
  · rw [same]; exact hs
  · exact armsBounded_of_eq added frame.params frame.arm
  · exact armsBounded_of_eq (armsBounded_safeEntry added) frame.params frame.arm

theorem armsBounded_withLink (hs : ∀ u, ArmBounded (armParams s u) (s.arm u)) (l : Link) :
    ∀ u, ArmBounded (armParams (s.withLink l) u) ((s.withLink l).arm u) :=
  armsBounded_of_eq hs rfl fun _ => State.withLink_arm ..

theorem armsBounded_checkTally (hs : ∀ u, ArmBounded (armParams s u) (s.arm u)) :
    ∀ u, ArmBounded (armParams (checkTally s) u) ((checkTally s).arm u) := by
  unfold checkTally
  split
  · exact armsBounded_reportCause .linkMute (armsBounded_withLink hs (mutedLink (ms s) s.link))
  · exact hs

theorem armsBounded_returnInHand (hs : ∀ u, ArmBounded (armParams s u) (s.arm u)) :
    ∀ u, ArmBounded (armParams (returnInHand s) u) ((returnInHand s).arm u) := by
  rcases returnInHand_cases s with ⟨-, same⟩ | ⟨e, -, same⟩ <;> rw [same]
  · exact hs
  · exact armsBounded_of_eq (armsBounded_withLink hs _) (returnFrame_frame ..).params (returnFrame_frame ..).arm

theorem armsBounded_linkPart (hs : ∀ u, ArmBounded (armParams s u) (s.arm u)) (h : LinkPart s t) :
    ∀ u, ArmBounded (armParams t u) (t.arm u) := by
  cases h with
  | contends may =>
    obtain ⟨-, -, -, listed⟩ := mayContend_iff.1 may
    obtain ⟨e, rest, list⟩ := List.exists_cons_of_ne_nil listed
    rw [beginContest_cons list]
    exact armsBounded_of_eq hs rfl fun u => by cases u <;> rfl
  | lost contends => exact armsBounded_returnInHand (armsBounded_withLink hs _)
  | aborted aborts =>
    have quiet := armsBounded_withLink hs (quietAbort s.link)
    unfold settleAbort
    split
    · exact armsBounded_returnInHand (armsBounded_checkTally quiet)
    · exact armsBounded_checkTally (armsBounded_returnInHand quiet)
  | idle | framing | received | begins | won | faulted | unmuted | sent | headDropped => exact armsBounded_withLink hs _

theorem armBounded_resetArm (p : ArmParams) (x : Option Nat) : ArmBounded p { State.resetArm with deflectOff := x } where
  list := rfl
  remaining := Nat.zero_le _
  resting k := absurd rfl k
  idle _ := ⟨rfl, rfl⟩
  still _ := ⟨rfl, rfl, rfl⟩
  turning k := nomatch k
  trim := by simp [State.resetArm]
  load := by simp [State.resetArm]
  cause := by simp [State.resetArm]
  stowed _ := rfl
  window := by simp [State.resetArm]

/-- The stow check finds an arm STOWED without a cause, or in FAULT with one (R124). -/
theorem stowCheck_cases (s : State) (u : ArmUnit) : stowCheck s u = (.stowed, .none)
    ∨ stowCheck s u = (.fault, .notStowed) ∨ stowCheck s u = (.fault, .angleRange) := by
  unfold stowCheck
  dsimp only
  split
  · split
    · exact .inl rfl
    · exact .inr (.inl rfl)
  · exact .inr (.inr rfl)

theorem startedArm_state (s : State) (u : ArmUnit) : (startedArm s u).state = (stowCheck s u).1 := rfl
theorem startedArm_cause (s : State) (u : ArmUnit) : (startedArm s u).cause = (stowCheck s u).2 := rfl

theorem armBounded_startedArm (p : ArmParams) (s : State) (u : ArmUnit) : ArmBounded p (startedArm s u) := by
  have states := stowCheck_cases s u
  have still : brushRuns (startedArm s u) = false := rfl
  refine ⟨?_, Nat.zero_le _, fun k => absurd rfl k, fun _ => ⟨rfl, rfl⟩, fun _ => ⟨rfl, rfl, rfl⟩,
    (fun k => by rw [still] at k; cases k), by simp [startedArm, State.resetArm], by simp [startedArm, State.resetArm], ?_,
    fun _ => rfl, ?_⟩
  · rw [startedArm_state]
    rcases states with h | h | h <;> rw [h] <;> rfl
  · rw [startedArm_state, startedArm_cause]
    rcases states with h | h | h <;> rw [h] <;> decide
  · rw [startedArm_state]
    rcases states with h | h | h <;> rw [h] <;> simp [startedArm, State.resetArm]

theorem armsBounded_startPart (hs : ArmsKept s) (h : StartPart s t) : ∀ u, ArmBounded (armParams t u) (t.arm u) := by
  cases h with
  | imageAccepted m first c =>
    intro u
    obtain ⟨-, -, arm, -⟩ := hs.carried.configuring c
    rw [enterJoining_eq, startDuties_arm]
    split
    · exact armBounded_startedArm ..
    · rw [joined_arm, arm u]; exact armBounded_resetArm ..
  | readAgain | imageFailed | opened => exact armsBounded_of_eq hs.bounded rfl fun u => by cases u <;> rfl

theorem ArmsKept.part (hs : ArmsKept s) (h : Part s t) : ArmsKept t := by
  refine ⟨hs.carried.part h, ?_⟩
  cases h with
  | start h => exact armsBounded_startPart hs h
  | pub h => exact armsBounded_of_eq hs.bounded h.frame.params h.frame.arm
  | link h => exact armsBounded_linkPart hs.bounded h
  | picture h => rw [h.eq]; exact armsBounded_of_eq hs.bounded rfl fun _ => State.withPicture_arm ..
  | arm u h => exact armsBounded_armPart hs.bounded h
  | duty h => exact armsBounded_of_eq hs.bounded h.frame.params fun u => by cases h <;> cases u <;> rfl
  | caused c => exact armsBounded_reportCause c hs.bounded
  | released h =>
    exact armsBounded_setAllClaims (armsBounded_of_eq (t := s.withSafe _) hs.bounded rfl fun _ => State.withSafe_arm ..)
  | passes | inputs | flagsCleared => exact armsBounded_of_eq hs.bounded rfl fun u => by cases u <;> rfl

end

/-- Settles O55: the arm units at reset stand STOWED, and every part of a command keeps them within their bounds. -/
theorem armsStayBounded : Obligations.ArmsStayBounded := fun _ _ carried bounded h =>
  (step_keeps (P := ArmsKept)
    (fun held address => ⟨.atReset held address, fun u => by cases u <;> exact armBounded_resetArm _ none⟩)
    (fun _ k => ⟨k.carried.congr rfl rfl rfl (fun u => by cases u <;> rfl) rfl,
      armsBounded_of_eq k.bounded rfl fun u => by cases u <;> rfl⟩) ArmsKept.part ⟨carried, bounded⟩ h).bounded

end Sys2Proof.Machine
end

section
/-! PROOFS. The bytes of every cyclic record, and an arm unit alone: each operation of the model makes of its arm what the rules
make of it (spec/07, 7.3–7.6). -/

namespace Sys2Proof.Machine

section
variable {s t : State} {u : ArmUnit} {a : Arm}

/-! ## The bytes of the other cyclic records (R49–R51, R104, R146, R147, R175, R208) -/

theorem modeCode_eq_idxOf (m : Mode) : modeCode m = [Mode.park, .transport, .sweep].idxOf m := by cases m <;> rfl

theorem directionCode_eq_idxOf (d : Direction) : directionCode d = [Direction.forward, .reverse].idxOf d := by cases d <;> rfl

theorem driveStateCode_eq_idxOf (st : DriveState) :
    driveStateCode st = [DriveState.parked, .standing, .running, .halting, .held].idxOf st := by cases st <;> rfl

theorem armRequestCode_eq_requestIn207 (r : ArmRequest) : armRequestCode r = requestIn207 r := by cases r <;> rfl

theorem positionCode_eq_idxOf (p : Position) : positionCode p = [Position.left, .right, .main, .aux].idxOf p := by cases p <;> rfl

theorem armStateCode_eq_idxOf (st : ArmState) : armStateCode st
    = [ArmState.stowed, .deploying, .sweeping, .yielding, .yielded, .resuming, .retracting, .fault].idxOf st := by cases st <;> rfl

theorem listCode_eq_idxOf (l : ListName) : listCode l = [ListName.none, .deploy, .retract, .yield, .resume].idxOf l := by
  cases l <;> rfl

theorem armFaultCode_eq_idxOf (c : ArmFault) : armFaultCode c
    = [ArmFault.none, .stepTimeout, .angleRange, .brushSensor, .stationSafe, .notStowed].idxOf c := by cases c <;> rfl

/-- The distance is 24 bits wide, so its three bytes are the statements'. -/
theorem be24_distance (n : Nat) : be24 (n % 2 ^ 24) = spelled [n / 65536 % 256, n / 256 % 256, n % 256] := by
  have high : BitVec.ofNat 8 (n % 2 ^ 24 / 65536) = BitVec.ofNat 8 (n / 65536 % 256) :=
    BitVec.eq_of_toNat_eq (by simp only [BitVec.toNat_ofNat]; omega)
  have middle : BitVec.ofNat 8 (n % 2 ^ 24 / 256) = BitVec.ofNat 8 (n / 256 % 256) :=
    BitVec.eq_of_toNat_eq (by simp only [BitVec.toNat_ofNat]; omega)
  have low : BitVec.ofNat 8 (n % 2 ^ 24) = BitVec.ofNat 8 (n % 256) :=
    BitVec.eq_of_toNat_eq (by simp only [BitVec.toNat_ofNat]; omega)
  simp only [be24, byteOf, spelled, List.map_cons, List.map_nil, high, middle, low]

theorem recordBytes_travel (s : State) : RecordBytes s (cyclicRecord s .travel) .travel := by
  simp only [RecordBytes, cyclicRecord, travelRecordOut, directionCode_eq_idxOf, driveStateCode_eq_idxOf, reasonCode_eq_reasonIn207,
    be24_distance, spelled_append, spelled_twoBytes, List.append_assoc]
  rfl

theorem recordBytes_operator (s : State) : RecordBytes s (cyclicRecord s .operator) .operator := by
  simp only [RecordBytes, cyclicRecord, operatorRecordOut, modeCode_eq_idxOf, directionCode_eq_idxOf, armRequestCode_eq_requestIn207,
    spelled_append, spelled_twoBytes]
  rfl

theorem armRecordOut_eq_armBytes (s : State) (u : ArmUnit) : armRecordOut s u = armBytes s u := by
  simp only [armRecordOut, armBytes, positionCode_eq_idxOf, armStateCode_eq_idxOf, listCode_eq_idxOf, armFaultCode_eq_idxOf,
    spelled_append, spelled_twoBytes]
  rfl

/-- Every cyclic record is spelled byte by byte as R208 has it. -/
theorem recordBytes (s : State) (t : CyclicTopic) : RecordBytes s (cyclicRecord s t) t := by
  cases t
  case pace => exact recordBytes_pace s
  case travel => exact recordBytes_travel s
  case operator => exact recordBytes_operator s
  case armA => exact armRecordOut_eq_armBytes s .a
  case armB => exact armRecordOut_eq_armBytes s .b
  case water => exact recordBytes_water s

/-! ## The brush (R142, R143) -/

theorem armTurns_eq (a : Arm) : armTurns a = brushRuns a := by
  unfold armTurns brushRuns
  cases a.state <;> rfl

theorem armAtRest_eq (now : Nat) (a : Arm) : armAtRest a = stopBrush now a := rfl

theorem turnsSince_eq (s : State) (old new : Nat) (since : Option Nat) :
    turnsSince s old new since = noteExpect s.micros (decide (0 < old)) (decide (0 < new)) since := by
  unfold turnsSince noteExpect
  rcases Nat.eq_zero_or_pos new with rfl | hn
  · rfl
  · rcases Nat.eq_zero_or_pos old with rfl | ho
    · simp [Nat.ne_of_gt hn]
    · simp [Nat.ne_of_gt hn, hn, Nat.ne_of_gt ho, ho]

theorem armAtTarget_eq (s : State) (u : ArmUnit) (trim : Int) (a : Arm) : armAtTarget s u trim a =
    { setTarget s.micros (brushTarget (armParams s u) a.inputs.vt) a with
      trim := trim
      pwm := brushPwm (armParams s u) (brushTarget (armParams s u) a.inputs.vt) trim } := by
  have clamp (x : Int) : (max 0 (min 1000 x)).toNat = clampNat 1000 x := by unfold clampNat; omega
  unfold armAtTarget
  dsimp only
  rw [turnsSince_eq, clamp]
  rfl

theorem armAtTarget_of_trim (s : State) (u : ArmUnit) (a : Arm) :
    armAtTarget s u a.trim a = startBrush (armParams s u) s.micros a := armAtTarget_eq s u a.trim a

/-! ## The claim and a change of state (R129, R132, R142–R145) -/

theorem armHolds_eq (s : State) (u : ArmUnit) (a : Arm) : armHolds s u a = formClaim s (armOwnClaim (armParams s u) a) := by
  unfold armHolds formClaim armOwnClaim
  dsimp only
  split
  · rfl
  · cases a.state <;> rfl

theorem armEnters_eq (s : State) (u : ArmUnit) (st : ArmState) (a : Arm) : armEnters s u st a =
    { enterState (armParams s u) s.micros (ms s) st a with
      claim := some (formClaim s (armOwnClaim (armParams s u) (enterState (armParams s u) s.micros (ms s) st a))) } := by
  have settled (b : Arm) (h : b.trim = a.trim) :
      (if armTurns b = false then armAtRest b else if armTurns a = true then b else armAtTarget s u a.trim b)
        = settleBrush (armParams s u) s.micros (brushRuns a) b := by
    rw [armTurns_eq, armTurns_eq, ← h, armAtTarget_of_trim, armAtRest_eq s.micros]
    unfold settleBrush
    cases brushRuns b <;> rfl
  unfold armEnters
  dsimp only
  rw [settled _ (by rfl), armHolds_eq]
  rfl

/-- A change of state makes of the arm what the rules have (R145). -/
theorem restIn_armEnters (u : ArmUnit) (st : ArmState) (s : State) : (restIn u st s).arm u = armEnters s u st (s.arm u) := by
  rw [restIn_arm, changeArm_arm, armEnters_eq]

/-! ## What the rules read beside the arm -/

/-- Two stations that agree on what an arm's rules read beside the arm itself: the clock, the image's values, the inputs, the
picture's table and slots, and Safe Control. -/
structure SameAround (s t : State) : Prop where
  micros : t.micros = s.micros
  params : t.params = s.params
  inputs : t.inputs = s.inputs
  table : t.picture.table = s.picture.table
  slots : t.picture.slots = s.picture.slots
  safe : t.safe = s.safe

theorem KeepsAllButArm.around (h : KeepsAllButArm u s t) : SameAround s t :=
  ⟨h.micros, h.params, h.inputs, by rw [h.picture], by rw [h.picture], h.safe⟩

theorem KeepsAllButPub.around (h : KeepsAllButPub s t) : SameAround s t :=
  ⟨h.micros, h.params, h.inputs, by rw [h.picture], by rw [h.picture], h.safe⟩

theorem SameAround.armEnters (h : SameAround s t) (u : ArmUnit) (st : ArmState) (a : Arm) : armEnters t u st a = armEnters s u st a := by
  rcases s with ⟨_, _, _, _, _, _, ⟨_, _, _, _, _, _⟩⟩
  rcases t with ⟨_, _, _, _, _, _, ⟨_, _, _, _, _, _⟩⟩
  obtain ⟨rfl, rfl, rfl, rfl, rfl, rfl⟩ := h
  cases u <;> rfl

theorem SameAround.armFails (h : SameAround s t) (u : ArmUnit) (c : ArmFault) (a : Arm) : armFails t u c a = armFails s u c a := by
  rcases s with ⟨_, _, _, _, _, _, ⟨_, _, _, _, _, _⟩⟩
  rcases t with ⟨_, _, _, _, _, _, ⟨_, _, _, _, _, _⟩⟩
  obtain ⟨rfl, rfl, rfl, rfl, rfl, rfl⟩ := h
  cases u <;> rfl

theorem SameAround.stepBegins (h : SameAround s t) (u : ArmUnit) (st : Step) (a : Arm) : stepBegins t u st a = stepBegins s u st a := by
  rcases s with ⟨_, _, _, _, _, _, ⟨_, _, _, _, _, _⟩⟩
  rcases t with ⟨_, _, _, _, _, _, ⟨_, _, _, _, _, _⟩⟩
  obtain ⟨rfl, rfl, rfl, rfl, rfl, rfl⟩ := h
  cases u <;> rfl

theorem SameAround.stepMet (h : SameAround s t) (u : ArmUnit) (a : Arm) (st : Step) : stepMet t u a st = stepMet s u a st := by
  rcases s with ⟨_, _, _, _, _, _, ⟨_, _, _, _, _, _⟩⟩
  rcases t with ⟨_, _, _, _, _, _, ⟨_, _, _, _, _, _⟩⟩
  obtain ⟨rfl, rfl, rfl, rfl, rfl, rfl⟩ := h
  cases u <;> rfl

theorem SameAround.armParams (h : SameAround s t) (u : ArmUnit) : armParams t u = armParams s u := armParams_congr h.params u

theorem SameAround.stepsRun (h : SameAround s t) (u : ArmUnit) (l : List Step) (a : Arm) : stepsRun t u l a = stepsRun s u l a := by
  induction l generalizing a with
  | nil => rfl
  | cons st rest ih => simp only [Machine.stepsRun, h.stepBegins, h.stepMet, ih]

theorem SameAround.armStarts (h : SameAround s t) (u : ArmUnit) (st : ArmState) (l : ListName) (a : Arm) :
    armStarts t u st l a = armStarts s u st l a := by
  simp only [Machine.armStarts, h.armParams, h.stepsRun, h.armEnters]

theorem SameAround.armRetracts (h : SameAround s t) (u : ArmUnit) (a : Arm) : armRetracts t u a = armRetracts s u a := by
  simp only [Machine.armRetracts, h.armStarts, h.armEnters]

theorem SameAround.armEnds (h : SameAround s t) (u : ArmUnit) (l : ListName) (a : Arm) : armEnds t u l a = armEnds s u l a := by
  simp only [Machine.armEnds, h.armRetracts, h.armEnters]

theorem SameAround.armTakes (h : SameAround s t) (u : ArmUnit) (l : ListName) (a : Arm) : armTakes t u l a = armTakes s u l a := by
  simp only [Machine.armTakes, h.armStarts, h.armEnds]

theorem SameAround.stepDone (h : SameAround s t) (u : ArmUnit) (a : Arm) : stepDone t u a = stepDone s u a := by
  simp only [Machine.stepDone, h.armParams, h.stepsRun, h.armEnds]

/-! ## Steps (R134–R138) -/

theorem waterHeard_eq (p : Picture) : waterHeard p = waterMet p := by
  have stores : (List.finRange 24).any (fun i => decide ((p.table[i]).inUse = true ∧ ruleDestination p.table[i] ≠ .queue
      ∧ ruleLabel p.table[i] = .waterIn)) = hearsWater p := by
    unfold hearsWater ruleNumbers
    refine List.any_congr rfl fun i => ?_
    simp only [ruleStores, Bool.decide_and, Bool.decide_eq_true, Bool.and_assoc, bne, Bool.beq_eq_decide_eq, decide_not]
  unfold waterHeard waterMet
  dsimp only
  rw [stores]
  simp only [slotsOf, slotNumbers, List.any_filter]
  refine congrArg (fun b => !hearsWater p || b) (List.any_congr rfl fun n => ?_)
  refine congrArg (fun b => slotLabel p n == some .waterIn && b) ?_
  cases p.slots[n].record with
  | none => rfl
  | some r =>
    simp only [Option.any_some, Bool.decide_and, Bool.decide_or, Bool.beq_eq_decide_eq, Bool.and_assoc]
    rfl

/-- What a step does at the instant it begins is what the rules have it do (R135, R136, R138). -/
theorem beginStep_stepBegins (u : ArmUnit) (st : Step) (s : State) : (beginStep u st s).arm u = stepBegins s u st (s.arm u) := by
  cases st with
  | brush on =>
    cases on
    · exact State.withArm_arm_same ..
    · simp only [beginStep, stepBegins, State.withArm_arm_same, armTurns_eq, ← armAtTarget_of_trim, ← armAtRest_eq s.micros]
  | waitDist mm =>
    simp only [beginStep, stepBegins, State.withArm_arm_same, distanceRecord]
    rfl
  | valve | waitAngle | waitTime | waitWater | waitBrush => exact State.withArm_arm_same ..

/-- Whether a step completes at the instant it begins is whether its condition is met then (R134–R137). -/
theorem completesAtOnce_eq (u : ArmUnit) (st : Step) (s : State) :
    completesAtOnce u st (beginStep u st s) = stepMet s u (stepBegins s u st (s.arm u)) st := by
  have frame := beginStep_frame u st s
  cases st with
  | valve | brush => rfl
  | waitAngle below threshold =>
    simp only [completesAtOnce, stepMet, angleMet, frame.inputs]
  | waitTime units => exact Bool.beq_eq_decide_eq ..
  | waitDist mm =>
    simp only [completesAtOnce, stepMet, beginStep_stepBegins, stepBegins, Bool.beq_eq_decide_eq]
    cases travelRecord s <;> rfl
  | waitWater => simp only [completesAtOnce, stepMet, frame.picture, waterHeard_eq]
  | waitBrush =>
    have value : fnValue (beginStep u .waitBrush s) (brushFn u) = fnValue s (brushFn u) := by
      simp only [fnValue, frame.inputs, frame.params, frame.micros]
    simp only [completesAtOnce, stepMet, brushMet, frame.inputs, value, beginStep_stepBegins]

/-- Steps run one after another are the rules' (R133, R134). -/
theorem runSteps_stepsRun (u : ArmUnit) (l : List Step) (s : State) :
    (endList u (runSteps u l s)).1.arm u = (stepsRun s u l (s.arm u)).1
      ∧ (endList u (runSteps u l s)).2 = (stepsRun s u l (s.arm u)).2 := by
  induction l generalizing s with
  | nil => exact ⟨State.withArm_arm_same .., rfl⟩
  | cons st rest ih =>
    have around : SameAround s ((beginStep u st s).withArm u (countStep ((beginStep u st s).arm u))) :=
      ((beginStep_frame u st s).trans (.withArm ..)).around
    have next := ih ((beginStep u st s).withArm u (countStep ((beginStep u st s).arm u)))
    rw [State.withArm_arm_same, around.stepsRun, beginStep_stepBegins] at next
    unfold runSteps stepsRun
    dsimp only
    rw [completesAtOnce_eq, beginStep_stepBegins]
    cases stepMet s u (stepBegins s u st (s.arm u)) st
    · exact ⟨beginStep_stepBegins u st s, rfl⟩
    · exact next

/-! ## Lists and transitions (R128–R134) -/

theorem startList_armStarts (u : ArmUnit) (st : ArmState) (l : ListName) (s : State) :
    (startList u st l s).1.arm u = (armStarts s u st l (s.arm u)).1 ∧ (startList u st l s).2 = (armStarts s u st l (s.arm u)).2 := by
  have loaded := (KeepsAllButArm.withArm u s (loadList (armParams s u) l (s.arm u))).around
  have changed := ((KeepsAllButArm.withArm u s (loadList (armParams s u) l (s.arm u))).trans (changeArm_frame u st _)).around
  obtain ⟨arm, done⟩ := runSteps_stepsRun u (listSteps (armParams s u) l)
    (changeArm u st (s.withArm u (loadList (armParams s u) l (s.arm u))))
  rw [changed.stepsRun, ← restIn_arm, restIn_armEnters, loaded.armEnters, State.withArm_arm_same] at arm done
  exact ⟨(askArm_arm ..).trans arm, done⟩

theorem startRetract_armRetracts (u : ArmUnit) (s : State) : (startRetract u s).arm u = armRetracts s u (s.arm u) := by
  obtain ⟨arm, done⟩ := startList_armStarts u .retracting .retract s
  have around := (startList_frame u .retracting .retract s).around
  unfold startRetract armRetracts
  dsimp only
  rw [done]
  split
  · rw [restIn_armEnters, around.armEnters, arm]
  · exact arm

theorem finishYield_armEnds (u : ArmUnit) (s : State) : (finishYield u s).arm u = armEnds s u .yield (s.arm u) := by
  have condition : retractCondition (s.arm u).inputs = true
      ↔ (s.arm u).inputs.heard = false ∨ (s.arm u).inputs.mode ≠ .sweep ∨ (s.arm u).inputs.request = .retract := by
    simp [retractCondition, or_assoc]
  unfold finishYield armEnds
  by_cases retracts : retractCondition (s.arm u).inputs = true
  · rw [if_pos retracts, if_pos (condition.1 retracts), startRetract_armRetracts]
  · rw [if_neg retracts, if_neg (mt condition.2 retracts), restIn_armEnters]

theorem finishList_armEnds (u : ArmUnit) (l : ListName) (s : State) : (finishList u l s).arm u = armEnds s u l (s.arm u) := by
  cases l with
  | none => rfl
  | yield => exact finishYield_armEnds u s
  | deploy | retract | resume => exact restIn_armEnters ..

/-- A list started, and where it leads when it is done at once, as the rules have it. -/
theorem startList_armTakes (u : ArmUnit) (st : ArmState) (l : ListName) (s : State)
    (takes : armTakes s u l (s.arm u) = if (armStarts s u st l (s.arm u)).2 = true
      then armEnds s u l (armStarts s u st l (s.arm u)).1 else (armStarts s u st l (s.arm u)).1) :
    (if (startList u st l s).2 = true then finishList u l (startList u st l s).1 else (startList u st l s).1).arm u
      = armTakes s u l (s.arm u) := by
  obtain ⟨arm, done⟩ := startList_armStarts u st l s
  have around := (startList_frame u st l s).around
  rw [takes, done]
  split
  · rw [finishList_armEnds, around.armEnds, arm]
  · exact arm

theorem startRetract_armTakes (u : ArmUnit) (s : State) : (startRetract u s).arm u = armTakes s u .retract (s.arm u) :=
  startList_armTakes u .retracting .retract s rfl

theorem startDeploy_armTakes (u : ArmUnit) (s : State) : (startDeploy u s).arm u = armTakes s u .deploy (s.arm u) :=
  startList_armTakes u .deploying .deploy s rfl

theorem startYield_armTakes (u : ArmUnit) (s : State) : (startYield u s).arm u = armTakes s u .yield (s.arm u) :=
  startList_armTakes u .yielding .yield s rfl

theorem startResume_armTakes (u : ArmUnit) (s : State) : (startResume u s).arm u = armTakes s u .resume (s.arm u) :=
  startList_armTakes u .resuming .resume s rfl

theorem freeArm_armTakes (u : ArmUnit) (s : State) :
    (freeArm u s).arm u = armTakes s u .retract { s.arm u with cause := .none } := by
  have around := (KeepsAllButArm.withArm u s { s.arm u with cause := .none }).around
  rw [freeArm, startRetract_armTakes, around.armTakes, State.withArm_arm_same]

/-- The wait step in progress complete, with whatever the list runs through at once (R134). -/
theorem completeStep_stepDone (u : ArmUnit) (s : State) : (completeStep u s).arm u = stepDone s u (s.arm u) := by
  have around := (KeepsAllButArm.withArm u s (countStep (s.arm u))).around
  have steps : stepsLeft (armParams (s.withArm u (countStep (s.arm u))) u) ((s.withArm u (countStep (s.arm u))).arm u)
      = stepsLeft (armParams s u) (stepCounted (s.arm u)) := by rw [State.withArm_arm_same, armParams_withArm]; rfl
  obtain ⟨arm, done⟩ := runSteps_stepsRun u (stepsLeft (armParams s u) (stepCounted (s.arm u)))
    (s.withArm u (countStep (s.arm u)))
  rw [around.stepsRun, State.withArm_arm_same] at arm done
  have ended : SameAround s (endList u (runSteps u (stepsLeft (armParams s u) (stepCounted (s.arm u)))
      (s.withArm u (countStep (s.arm u))))).1 :=
    ((KeepsAllButArm.withArm u s _).trans ((runSteps_frame ..).trans (endList_frame ..))).around
  unfold completeStep stepDone
  dsimp only
  rw [steps, done]
  change _ = (if (stepsRun s u (stepsLeft (armParams s u) (stepCounted (s.arm u))) (countStep (s.arm u))).2 = true then _ else _)
  split
  · rw [finishList_armEnds, ended.armEnds, arm]; rfl
  · exact arm

/-! ## FAULT (R139, R140) -/

theorem faultArm_armFails (u : ArmUnit) (c : ArmFault) (s : State) : (faultArm u c s).arm u = armFails s u c (s.arm u) := by
  unfold faultArm armFails
  dsimp only
  rw [askArm_arm, reformArmClaim_arm, State.withArm_arm_same, armParams_withArm, armHolds_eq]
  simp only [formClaim, isSafe_withArm]
  rfl

theorem armActive_iff (a : Arm) : armActive a = true ↔ a.state ≠ .stowed ∧ a.state ≠ .fault := by simp [armActive]

theorem faultEvent_of_active {c : ArmFault} (p : armPresent s u = true) (h : (s.arm u).state ≠ .stowed ∧ (s.arm u).state ≠ .fault) :
    faultEvent u c s = faultArm u c s := by simp [faultEvent, p, (armActive_iff _).2 h]

theorem faultEvent_of_idle {c : ArmFault} (h : armPresent s u = false ∨ (s.arm u).state = .stowed ∨ (s.arm u).state = .fault) :
    faultEvent u c s = s := by
  rcases h with h | h | h <;> simp [faultEvent, armActive, h]

/-! ## The six steps of a period (R125–R132, R136, R137, R139, R142, R143) -/

theorem checkAngle_armAngled (p : armPresent s u = true) : (checkAngle u s).arm u = armAngled s u (s.arm u) := by
  unfold checkAngle armAngled
  cases inRange : angleInRange s.inputs u with
  | true => exact (if_neg (fun h => nomatch h.1)).symm
  | false =>
    change (faultEvent u .angleRange s).arm u = _
    by_cases active : (s.arm u).state ≠ .stowed ∧ (s.arm u).state ≠ .fault
    · rw [faultEvent_of_active p active, faultArm_armFails]
      exact (if_pos ⟨rfl, active⟩).symm
    · have idle : (s.arm u).state = .stowed ∨ (s.arm u).state = .fault := by
        by_cases stowed : (s.arm u).state = .stowed
        · exact .inl stowed
        · exact .inr (Classical.byContradiction fun fault => active ⟨stowed, fault⟩)
      rw [faultEvent_of_idle (.inr idle)]
      exact (if_neg (fun h => active h.2)).symm

theorem checkDistance_arm (u : ArmUnit) (mm : Nat) (s : State) : (checkDistance u mm s).arm u =
    match (s.arm u).record, travelRecord s with
    | .distance start, some r =>
      if mm ≤ (longAt r.payload 6 + 2 ^ 24 - start % 2 ^ 24) % 2 ^ 24 then stepDone s u (s.arm u) else s.arm u
    | .distance _, none => s.arm u
    | _, some r => if mm = 0 then stepDone s u { s.arm u with record := .distance (longAt r.payload 6) }
      else { s.arm u with record := .distance (longAt r.payload 6) }
    | _, none => { s.arm u with record := .none } := by
  have completes (x : StepRecord) : (completeStep u (s.withArm u { s.arm u with record := x })).arm u
      = stepDone s u { s.arm u with record := x } := by
    rw [completeStep_stepDone, (KeepsAllButArm.withArm ..).around.stepDone, State.withArm_arm_same]
  have noted : (if (mm == 0 && distanceRecord s != .none) = true
        then completeStep u (s.withArm u { s.arm u with record := distanceRecord s })
        else s.withArm u { s.arm u with record := distanceRecord s }).arm u
      = match travelRecord s with
        | some r => if mm = 0 then stepDone s u { s.arm u with record := .distance (longAt r.payload 6) }
          else { s.arm u with record := .distance (longAt r.payload 6) }
        | none => { s.arm u with record := .none } := by
    unfold distanceRecord
    cases travelRecord s with
    | none => exact (congrArg (State.arm · u) (if_neg (by simp))).trans (State.withArm_arm_same ..)
    | some r =>
      by_cases zero : mm = 0
      · exact (congrArg (State.arm · u) (if_pos (by rw [zero]; rfl))).trans ((completes _).trans (if_pos zero).symm)
      · exact (congrArg (State.arm · u) (if_neg (by simp [zero]))).trans ((State.withArm_arm_same ..).trans (if_neg zero).symm)
  unfold checkDistance
  cases (s.arm u).record with
  | distance start =>
    unfold distanceMet
    cases travelRecord s with
    | none => rfl
    | some r =>
      by_cases met : mm ≤ (longAt r.payload 6 + 2 ^ 24 - start % 2 ^ 24) % 2 ^ 24
      · exact (congrArg (State.arm · u) (if_pos (decide_eq_true met))).trans
          ((completeStep_stepDone u s).trans (if_pos met).symm)
      · exact (congrArg (State.arm · u) (if_neg (mt of_decide_eq_true met))).trans (if_neg met).symm
  | none => refine noted.trans ?_; cases travelRecord s <;> rfl
  | time start => refine noted.trans ?_; cases travelRecord s <;> rfl

theorem checkStep_armChecked (u : ArmUnit) (s : State) : (checkStep u s).arm u = armChecked s u (s.arm u) := by
  have done (b : Bool) : (if b = true then completeStep u s else s).arm u = if b = true then stepDone s u (s.arm u) else s.arm u := by
    cases b
    · rfl
    · exact completeStep_stepDone u s
  unfold checkStep armChecked stepInProgress
  cases (stepsLeft (armParams s u) (s.arm u)).head? with
  | none => rfl
  | some st =>
    cases st with
    | waitDist mm => exact checkDistance_arm u mm s
    | waitWater => exact (done _).trans (by rw [← waterHeard_eq]; rfl)
    | waitBrush => exact (done _).trans rfl
    | valve | brush | waitAngle | waitTime => rfl

theorem deployCondition_iff : deployCondition s u = true ↔ (s.arm u).inputs.heard = true ∧ (s.arm u).inputs.mode = .sweep
    ∧ (s.arm u).inputs.request = .deploy ∧ isSafe s = false ∧ angleInRange s.inputs u = true := by
  simp [deployCondition, and_assoc]

theorem retractCondition_iff (i : ArmInputs) :
    retractCondition i = true ↔ i.heard = false ∨ i.mode ≠ .sweep ∨ i.request = .retract := by simp [retractCondition, or_assoc]

theorem yieldCondition_iff (expiry : Nat) : yieldCondition s u expiry = true ↔ switchOn s.inputs (deflectFn u) = true
    ∨ ∃ start ∈ (s.arm u).reverse.toList, start + 300 ≤ expiry := by
  unfold yieldCondition reversed300
  cases (s.arm u).reverse <;> simp

theorem deflectClear_iff : deflectClear s u = true ↔ switchOn s.inputs (deflectFn u) = false
    ∧ ∃ off ∈ (s.arm u).deflectOff.toList, off + 1000 ≤ s.micros / 1000 := by
  unfold deflectClear
  cases (s.arm u).deflectOff with
  | none => simp
  | some off =>
    simp only [Bool.and_eq_true, Bool.not_eq_true', Option.toList_some, List.mem_singleton, exists_eq_left]
    exact and_congr_right fun _ => decide_eq_true_iff

theorem workingPeriod_arm (u : ArmUnit) (expiry : Nat) (s : State) : (workingPeriod u expiry s).arm u =
    if (s.arm u).inputs.heard = false ∨ (s.arm u).inputs.mode ≠ .sweep ∨ (s.arm u).inputs.request = .retract
      then armTakes s u .retract (s.arm u)
    else if switchOn s.inputs (deflectFn u) = true ∨ ∃ start ∈ (s.arm u).reverse.toList, start + 300 ≤ expiry
      then armTakes s u .yield (s.arm u)
    else s.arm u := by
  unfold workingPeriod
  simp only [retractCondition_iff, yieldCondition_iff]
  split
  · exact startRetract_armTakes u s
  · split
    · exact startYield_armTakes u s
    · rfl

theorem yieldedPeriod_arm (u : ArmUnit) (s : State) : (yieldedPeriod u s).arm u =
    if (s.arm u).inputs.heard = false ∨ (s.arm u).inputs.mode ≠ .sweep ∨ (s.arm u).inputs.request = .retract
      then armTakes s u .retract (s.arm u)
    else if switchOn s.inputs (deflectFn u) = false ∧ (∃ off ∈ (s.arm u).deflectOff.toList, off + 1000 ≤ s.micros / 1000)
        ∧ (s.arm u).inputs.direction = some .forward
      then armTakes s u .resume (s.arm u)
    else s.arm u := by
  unfold yieldedPeriod
  simp only [retractCondition_iff, Bool.and_eq_true, deflectClear_iff, beq_iff_eq, and_assoc]
  split
  · exact startRetract_armTakes u s
  · split
    · exact startResume_armTakes u s
    · rfl

/-- At most one transition a period, as the table of spec/07, 7.3 has it. -/
theorem armTransition_armEvaluated (u : ArmUnit) (expiry : Nat) (s : State) :
    (armTransition u expiry s).arm u = armEvaluated s u expiry (s.arm u) := by
  have ready := (KeepsAllButArm.withArm u s { s.arm u with load := 100 }).around
  unfold armTransition armEvaluated
  cases state : (s.arm u).state with
  | stowed =>
    unfold stowedPeriod
    simp only [deployCondition_iff]
    split
    · rw [startDeploy_armTakes, ready.armTakes, State.withArm_arm_same, state]
    · rfl
  | retracting =>
    simp only [deployCondition_iff]
    split
    · exact startDeploy_armTakes u s
    · rfl
  | deploying | sweeping | resuming => exact workingPeriod_arm u expiry s
  | yielded => exact yieldedPeriod_arm u s
  | yielding | fault => rfl

/-- The brush formed at a period (R142, R143). -/
theorem formBrush_armBrushed (u : ArmUnit) (s : State) : (formBrush u s).arm u = armBrushed s u (s.arm u) := by
  have trim (x : Int) : (if ((fnState s (brushFn u)).isSome && fnState s (brushFn u) != some .lost) = true
      then clampInt (-150) 150 x else 0)
      = match fnState s (brushFn u) with
        | some .tracking | some .oneMissing | some .stopped => max (-150) (min 150 x)
        | some .lost | none => 0 := by
    cases fnState s (brushFn u) with
    | none => rfl
    | some c => cases c <;> rfl
  rw [formBrush, State.withArm_arm_same]
  unfold periodBrush armBrushed
  dsimp only
  rw [armTurns_eq]
  split
  · rw [trim, armAtTarget_eq]; rfl
  · rfl

end

end Sys2Proof.Machine
end

section
/-! PROOFS. SAFE entry, whole: what it makes of every duty and of the frames it builds, whichever cause made it (R55, R68, R70, R90,
R140, R161, R184). -/

namespace Sys2Proof.Machine

section
variable {s t r : State} {u w : ArmUnit} {v : CyclicTopic}

/-! ## Frames that stay announced -/

/-- A frame announced stays so where the scheduler keeps the topic's number, its timer and its pending frame, and its owner its
record. -/
theorem Announced.congr (h : Announced s v) (micros : t.micros = s.micros) (loader : t.loader = s.loader)
    (params : t.params = s.params) (kept : CyclicKept v s.pub t.pub)
    (listed : ∀ e ∈ s.pub.list, e.kind = .cyclic → e ∈ t.pub.list) (bytes : ∀ p, RecordBytes s p v → RecordBytes t p v) :
    Announced t v := by
  obtain ⟨timer, e, mem, kind, header, record, number⟩ := h
  obtain ⟨keptNumber, keptTimer⟩ := kept
  exact ⟨by rw [keptTimer, timer, micros, params], e, listed e mem kind, kind, by rw [header, loader], bytes _ record,
    keptNumber.trans number⟩

/-- A frame announced stays so whatever cyclic topic is asked for: of its own topic it is built again. -/
theorem Announced.requestCyclic (h : Announced s v) (x : CyclicTopic) : Announced (requestCyclic x s) v := by
  by_cases other : x = v
  · subst other
    by_cases o : s.loader.station = .operating
    · by_cases p : publishes s.duties x = true
      · exact announced_requestCyclic o p (recordBytes s x)
      · rw [requestCyclic_unpublished _ (Bool.not_eq_true _ ▸ p)]; exact h
    · rw [requestCyclic_silent _ o]; exact h
  · exact h.after_requestCyclic other

theorem Announced.checkUrgency (h : Announced s v) : Announced (checkUrgency s) v := by
  rcases checkUrgency_cases s with same | asked
  · rw [same]; exact h
  · rw [asked]; exact h.requestCyclic .pace

theorem armAnnounced_iff : ArmAnnounced s u ↔ Announced s (armTopic u) := by cases u <;> exact .rfl

theorem recordBytes_armTopic (s : State) (u : ArmUnit) (p : List Byte) : RecordBytes s p (armTopic u) ↔ p = armBytes s u := by
  cases u <;> exact .rfl

theorem armBytes_congr (arm : t.arm u = s.arm u) (micros : t.micros = s.micros) (params : t.params = s.params)
    (inputs : t.inputs = s.inputs) : armBytes t u = armBytes s u := by
  simp only [armBytes, arm, armParams_congr params, fnValue, micros, params, inputs]

/-- An arm's frame stays announced where the scheduler stays as it is and nothing that the frame reads moves. -/
theorem Announced.arm_of_same (h : Announced s (armTopic u)) (micros : t.micros = s.micros) (loader : t.loader = s.loader)
    (params : t.params = s.params) (inputs : t.inputs = s.inputs) (pub : t.pub = s.pub) (arm : t.arm u = s.arm u) :
    Announced t (armTopic u) :=
  h.congr micros loader params (pub ▸ .refl ..) (fun _ mem _ => pub ▸ mem) fun p bytes =>
    (recordBytes_armTopic t u p).2 (((recordBytes_armTopic s u p).1 bytes).trans (armBytes_congr arm micros params inputs).symm)

theorem Announced.withOtherArm (h : Announced s (armTopic w)) (ne : w ≠ u) (x : Arm) : Announced (s.withArm u x) (armTopic w) :=
  h.arm_of_same (State.withArm_micros ..) (State.withArm_loader ..) (State.withArm_params ..) (State.withArm_inputs ..)
    (State.withArm_pub ..) ((KeepsAllButArm.withArm u s x).other w ne)

/-- What the other arm unit does leaves an arm's frame announced. -/
theorem Announced.armMoves (h : Announced s (armTopic w)) (ne : w ≠ u) (moves : ArmMoves u s t) : Announced t (armTopic w) := by
  induction moves with
  | refl => exact h
  | tail _ step ih =>
    cases step with
    | holds x claim => exact ih.withOtherArm ne x
    | claims => exact ih.withOtherArm ne _
    | checks => exact ih.checkUrgency
    | asks => exact ih.requestCyclic _

theorem Announced.changeWater (h : Announced s (armTopic u)) (st : WaterState) : Announced (changeWater st s) (armTopic u) := by
  have entered : Announced (setWaterClaim (s.withWater (enterWater s.micros st s.water))) (armTopic u) :=
    h.arm_of_same rfl rfl rfl rfl rfl ((State.withWater_arm ..).trans (State.withWater_arm ..))
  exact entered.checkUrgency.requestCyclic .water

theorem Announced.safeWater (h : Announced s (armTopic u)) : Announced (safeWater s) (armTopic u) := by
  have inactive : Announced (s.withWater { s.water with active := false }) (armTopic u) :=
    h.arm_of_same rfl rfl rfl rfl rfl (State.withWater_arm ..)
  unfold Machine.safeWater
  split
  · exact inactive.changeWater .off
  · exact inactive.changeWater .off
  · exact inactive.changeWater .off
  · exact inactive
  · exact inactive
  · exact inactive

/-- An event that joins the list takes the place of events alone (R58). -/
theorem enqueueEvent_keeps_cyclic {e x : TxEntry} (mem : x ∈ s.pub.list) (kind : x.kind = .cyclic) :
    x ∈ (enqueueEvent e s).pub.list := by
  unfold enqueueEvent
  split
  · exact mem_insertNew.2 (.inr mem)
  · rcases offerFull_cases e s.pub.list with ⟨topic, full⟩ | ⟨before, y, after, topic, split, event, full⟩
    · simp only [full, State.withPub_pub, countDropped, Bool.false_eq_true, if_false]
      exact mem
    · have stays : x ∈ before ++ after := by
        rw [split] at mem
        rcases List.mem_append.1 mem with early | late
        · exact List.mem_append_left _ early
        · rcases List.mem_cons.1 late with rfl | later
          · rw [kind] at event; cases event
          · exact List.mem_append_right _ later
      simp only [full, State.withPub_pub, countDropped, if_true]
      exact mem_insertNew.2 (.inr stays)

theorem deferEvent_list (e : TxEntry) (s : State) : (deferEvent e s).pub.list = s.pub.list := by
  unfold deferEvent
  split <;> rfl

theorem requestEvent_keeps_cyclic {topic : Topic} {payload : List Byte} {x : TxEntry} (mem : x ∈ s.pub.list)
    (kind : x.kind = .cyclic) : x ∈ (requestEvent topic payload s).pub.list := by
  unfold requestEvent
  cases s.loader.station with
  | operating => exact enqueueEvent_keeps_cyclic (s := s.withPub (advanceSeq s.pub topic)) mem kind
  | joining =>
    rw [deferEvent_list]
    exact mem
  | configuring => exact mem
  | configFault => exact mem

/-- A cyclic record reads the duties, the inputs and the clock, not the scheduler. -/
theorem recordBytes_of_frame (frame : KeepsAllButPub s t) (p : List Byte) (h : RecordBytes s p v) : RecordBytes t p v := by
  rw [frame.eq]
  cases v <;> exact h

theorem Announced.requestEvent (h : Announced s v) {topic : Topic} (event : topic ∈ [Topic.halt, .notice, .clear, .report])
    (payload : List Byte) : Announced (requestEvent topic payload s) v :=
  have frame := requestEvent_frame topic payload s
  h.congr frame.micros frame.loader frame.params (requestEvent_cyclicKept event v) (fun _ => requestEvent_keeps_cyclic)
    (recordBytes_of_frame frame)

/-! ## The combined claim while SAFE (R68, R69, R70) -/

/-- While SAFE every claim is the same, so the combined claim is a matter of the duty set alone. -/
theorem dutyClaims_of_safe (hs : ClaimsHeld s) (ht : ClaimsHeld t) (safe : isSafe s = true) (still : isSafe t = true)
    (duties : t.duties = s.duties) : dutyClaims t = dutyClaims s := by
  have present (b : Bool) (d : Duty) {c e : Option Claim} (hc : b = true → c = some safeClaim) (he : b = true → e = some safeClaim) :
      (if b = true then (e.map fun x => (d, x)).toList else []) = if b = true then (c.map fun x => (d, x)).toList else [] := by
    cases b
    · rfl
    · rw [hc rfl, he rfl]
  have armA := present s.duties.armA .armA (c := s.armA.claim) (e := t.armA.claim) (fun p => (hs.arm .a p).2 safe)
    (fun p => (ht.arm .a (by rw [← p, ← duties]; rfl)).2 still)
  have armB := present s.duties.armB .armB (c := s.armB.claim) (e := t.armB.claim) (fun p => (hs.arm .b p).2 safe)
    (fun p => (ht.arm .b (by rw [← p, ← duties]; rfl)).2 still)
  have drive := present s.duties.drive .drive (fun p => (hs.drive p).2 safe) (fun p => (ht.drive (duties ▸ p)).2 still)
  have water := present s.duties.water .water (fun p => (hs.water p).2 safe) (fun p => (ht.water (duties ▸ p)).2 still)
  have console := present s.duties.console .console (fun p => (hs.console p).2 safe) (fun p => (ht.console (duties ▸ p)).2 still)
  unfold dutyClaims
  rw [duties]
  dsimp only
  rw [drive, armA, armB, water, console]

theorem combinedClaim_of_safe (hs : ClaimsHeld s) (ht : ClaimsHeld t) (safe : isSafe s = true) (still : isSafe t = true)
    (duties : t.duties = s.duties) : combinedClaim t = combinedClaim s := by
  unfold combinedClaim
  rw [dutyClaims_of_safe hs ht safe still duties]

/-- A station that publishes PACE holds a claim (R47, R65). -/
theorem dutyClaims_ne_nil (hs : ClaimsHeld s) (p : publishes s.duties .pace = true) : dutyClaims s ≠ [] := by
  intro none
  have absent (b : Bool) (d : Duty) {c : Option Claim} (held : b = true → c.isSome = true)
      (h : (if b = true then (c.map fun x => (d, x)).toList else []) = []) : b = false := by
    cases b
    · rfl
    · obtain ⟨x, rfl⟩ := Option.isSome_iff_exists.1 (held rfl)
      cases h
  simp only [dutyClaims, List.append_eq_nil_iff, and_assoc] at none
  obtain ⟨drive, armA, armB, water, console⟩ := none
  have noArmA : s.duties.armA = false := absent _ _ (fun p => (hs.arm .a p).1) armA
  have noArmB : s.duties.armB = false := absent _ _ (fun p => (hs.arm .b p).1) armB
  rw [publishes, absent _ _ (fun p => (hs.drive p).1) drive, noArmA, noArmB, absent _ _ (fun p => (hs.water p).1) water,
    absent _ _ (fun p => (hs.console p).1) console] at p
  cases p

theorem combinedUrgency_of_safe (hs : ClaimsHeld s) (safe : isSafe s = true) (p : publishes s.duties .pace = true) :
    combinedUrgency s = .stop := by
  obtain ⟨x, more, claims⟩ := List.exists_cons_of_ne_nil (dutyClaims_ne_nil hs p)
  rw [combinedUrgency, combinedClaim_of_all_eq claims (dutyClaims_while_safe hs safe)]
  rfl

/-! ## PACE at a SAFE entry (R55, R70) -/

/-- A SAFE station whose claims have gone out since `s`: PACE announced if the urgency rose, and STOP the last urgency where PACE can
go out at all. -/
structure SafePaced (s t : State) : Prop where
  safe : isSafe t = true
  claims : ClaimsHeld t
  pace : PaceRises s t
  last : t.loader.station = .operating → publishes t.duties .pace = true → t.pub.lastUrgency = .stop

theorem urgencyCode_le_stop (x : Urgency) : urgencyCode x ≤ urgencyCode .stop := by cases x <;> decide

/-- No urgency is above STOP, so nothing more is built. -/
theorem SafePaced.checkUrgency_eq (h : SafePaced s t) : checkUrgency t = t := by
  refine checkUrgency_of_not_rises fun ⟨o, p, above⟩ => ?_
  rw [h.last o p] at above
  exact Nat.not_lt.2 (urgencyCode_le_stop _) above

/-- The duties' blocks may move under SAFE claims: PACE reads the claims alone. -/
theorem SafePaced.of_same (h : SafePaced s t) (claims : ClaimsHeld r) (safe : isSafe r = true) (micros : r.micros = t.micros)
    (loader : r.loader = t.loader) (duties : r.duties = t.duties) (params : r.params = t.params) (pub : r.pub = t.pub) :
    SafePaced s r := by
  have combined : combinedClaim r = combinedClaim t := combinedClaim_of_safe h.claims claims h.safe safe duties
  have urgency : combinedUrgency r = combinedUrgency t := by unfold combinedUrgency; rw [combined]
  have rises (last : Urgency) : UrgencyRises r last ↔ UrgencyRises t last := by
    unfold UrgencyRises; rw [loader, duties, urgency]
  obtain ⟨up, stays⟩ := h.pace
  refine ⟨safe, claims, ⟨fun k => ?_, fun k => ?_⟩, ?_⟩
  · obtain ⟨announced, last⟩ := up ((rises _).1 k)
    refine ⟨announced.congr micros loader params (pub ▸ .refl ..) (fun _ mem _ => pub ▸ mem) fun p bytes => ?_, ?_⟩
    · intro duty c hc
      exact bytes duty c (combined ▸ hc)
    · rw [pub, last, urgency]
  · rw [pub]; exact stays (mt (rises _).2 k)
  · rw [loader, duties, pub]; exact h.last

theorem SafePaced.requestCyclic (h : SafePaced s t) (ne : v ≠ .pace) : SafePaced s (requestCyclic v t) := by
  have frame := requestCyclic_frame v t
  refine ⟨(isSafe_of_safe frame.safe).trans h.safe, h.claims.ofPub frame, h.pace.after_requestCyclic ne, ?_⟩
  rw [frame.loader, frame.duties, requestCyclic_lastUrgency ne]
  exact h.last

theorem armTopic_ne_pace (u : ArmUnit) : armTopic u ≠ .pace := by cases u <;> decide

theorem SafePaced.withArm (h : SafePaced s t) (x : Arm)
    (claim : x.claim = (t.arm u).claim ∨ ∃ own, x.claim = some (formClaim t own)) : SafePaced s (t.withArm u x) :=
  h.of_same (h.claims.armClaim (.withArm ..) (by rw [State.withArm_arm_same]; exact claim)) ((isSafe_withArm ..).trans h.safe)
    (State.withArm_micros ..) (State.withArm_loader ..) (State.withArm_duties ..) (State.withArm_params ..) (State.withArm_pub ..)

theorem SafePaced.armMoves (h : SafePaced s t) (moves : ArmMoves u t r) : SafePaced s r := by
  induction moves with
  | refl => exact h
  | tail _ step ih =>
    cases step with
    | holds x claim => exact ih.withArm x (.inl claim)
    | claims => exact ih.withArm _ (.inr ⟨_, rfl⟩)
    | checks => rw [ih.checkUrgency_eq]; exact ih
    | asks => exact ih.requestCyclic (armTopic_ne_pace u)

theorem SafePaced.withWater (h : SafePaced s t) (x : Water)
    (claim : x.claim = t.water.claim ∨ ∃ own, x.claim = some (formClaim t own)) : SafePaced s (t.withWater x) :=
  h.of_same (h.claims.withWater claim) h.safe rfl rfl rfl rfl rfl

theorem SafePaced.changeWater (h : SafePaced s t) (st : WaterState) : SafePaced s (changeWater st t) := by
  have entered : SafePaced s (setWaterClaim (t.withWater (enterWater t.micros st t.water))) :=
    (h.withWater _ (.inl (enterWater_claim ..))).withWater _ (.inr ⟨_, rfl⟩)
  unfold Machine.changeWater reformWaterClaim
  rw [entered.checkUrgency_eq]
  exact entered.requestCyclic (by decide)

theorem SafePaced.safeWater (h : SafePaced s t) : SafePaced s (safeWater t) := by
  have inactive : SafePaced s (t.withWater { t.water with active := false }) := h.withWater _ (.inl rfl)
  unfold Machine.safeWater
  split
  · exact inactive.changeWater .off
  · exact inactive.changeWater .off
  · exact inactive.changeWater .off
  · exact inactive
  · exact inactive
  · exact inactive

/-- The claims of a SAFE station set at once, and their urgency gone out (R68, R70). -/
theorem safePaced_claimed (safe : isSafe s = true) : SafePaced s (checkUrgency (setAllClaims s)) := by
  have claims := claimsHeld_setAllClaims s
  have still : isSafe (setAllClaims s) = true := (isSafe_of_safe (setAllClaims_safe s)).trans safe
  have pub := setAllClaims_pub s
  have frame := checkUrgency_frame (setAllClaims s)
  have pace : PaceRises s (checkUrgency (setAllClaims s)) := paceRises_checkUrgency (by rw [pub]) (pub ▸ .refl ..)
  refine ⟨(isSafe_of_safe frame.safe).trans still, claims.ofPub frame, pace, fun o p => ?_⟩
  have stop : combinedUrgency (checkUrgency (setAllClaims s)) = .stop :=
    combinedUrgency_of_safe (claims.ofPub frame) ((isSafe_of_safe frame.safe).trans still) p
  obtain ⟨up, stays⟩ := pace
  by_cases rises : UrgencyRises (checkUrgency (setAllClaims s)) s.pub.lastUrgency
  · obtain ⟨-, last⟩ := up rises
    rw [last, stop]
  · obtain ⟨last, -⟩ := stays rises
    have top : ¬urgencyCode s.pub.lastUrgency < urgencyCode .stop := fun below => rises ⟨o, p, stop ▸ below⟩
    rw [last]
    revert top
    cases s.pub.lastUrgency <;> decide

/-! ## The duties at a SAFE entry (R68, R90, R140, R161) -/

/-- The station of a SAFE entry with its claims set and its drive moved. -/
def entryDriven (s : State) : State :=
  (checkUrgency (setAllClaims s)).withDrive (safeDrive (checkUrgency (setAllClaims s)).drive)

/-- The station of a SAFE entry with its arms moved too. -/
def entryArmed (s : State) : State := faultEvent .b .stationSafe (faultEvent .a .stationSafe (entryDriven s))

theorem safeEntry_eq (s : State) : safeEntry s = whenPresent s.duties.water safeWater (entryArmed s) := rfl

theorem entryDriven_arm (u : ArmUnit) (s : State) : (entryDriven s).arm u = (setAllClaims s).arm u :=
  (State.withDrive_arm ..).trans ((checkUrgency_frame _).arm u)

theorem entryDriven_frame (s : State) : KeepsAllButDuties s (entryDriven s) :=
  (setAllClaims_frame s).trans ((KeepsAllButDuties.ofPub (checkUrgency_frame _)).trans (.withDrive ..))

theorem entryDriven_safe (s : State) : (entryDriven s).safe = s.safe :=
  (checkUrgency_frame _).safe.trans (setAllClaims_safe s)

theorem safePaced_entryDriven (safe : isSafe s = true) : SafePaced s (entryDriven s) := by
  have claimed := safePaced_claimed safe
  exact claimed.of_same (claimed.claims.withDrive (.inl rfl)) claimed.safe rfl rfl rfl rfl rfl

theorem safePaced_safeEntry (safe : isSafe s = true) : SafePaced s (safeEntry s) := by
  have armed := ((safePaced_entryDriven safe).armMoves (faultEvent_armMoves .a .stationSafe _)).armMoves
    (faultEvent_armMoves .b .stationSafe _)
  rw [safeEntry_eq]
  cases s.duties.water
  · exact armed
  · exact armed.safeWater

/-- The station that an arm's fault event of a SAFE entry is taken on: what the arm's rules read is as it was, its claim is set,
nothing else of the arm has moved. -/
theorem entryArmed_fault (u : ArmUnit) (s : State) : ∃ q, q.arm u = (setAllClaims s).arm u ∧ KeepsAllButDuties s q
    ∧ q.safe = s.safe ∧ (entryArmed s).arm u = (faultEvent u .stationSafe q).arm u
    ∧ (Announced (faultEvent u .stationSafe q) (armTopic u) → Announced (entryArmed s) (armTopic u)) := by
  have frame := entryDriven_frame s
  cases u with
  | a =>
    exact ⟨entryDriven s, entryDriven_arm .a s, frame, entryDriven_safe s, (faultEvent_frame .b ..).other .a (by decide),
      fun h => h.armMoves (by decide) (faultEvent_armMoves .b .stationSafe _)⟩
  | b =>
    have first := faultEvent_frame .a .stationSafe (entryDriven s)
    exact ⟨faultEvent .a .stationSafe (entryDriven s), (first.other .b (by decide)).trans (entryDriven_arm .b s),
      frame.trans (.ofArm first), first.safe.trans (entryDriven_safe s), rfl, id⟩

theorem publishes_armTopic (d : DutySet) (u : ArmUnit) : publishes d (armTopic u) = match u with | .a => d.armA | .b => d.armB := by
  cases u <;> rfl

theorem publishes_armTopic_of_present (p : armPresent s u = true) : publishes s.duties (armTopic u) = true := by
  cases u <;> exact p

/-- An arm that enters FAULT on an OPERATING station announces it (R55). -/
theorem faultArm_announced {c : ArmFault} (o : s.loader.station = .operating) (p : armPresent s u = true) :
    Announced (faultArm u c s) (armTopic u) := by
  obtain ⟨b, eq⟩ : ∃ b, faultArm u c s = askArm u (reformArmClaim u (s.withArm u b)) := ⟨_, rfl⟩
  have frame := reformArmClaim_frame u (s.withArm u b)
  rw [eq]
  refine announced_requestCyclic ?_ (publishes_armTopic_of_present ?_) (recordBytes ..)
  · exact (frame.loader.trans (State.withArm_loader ..)) ▸ o
  · exact (frame.armPresent_eq u).trans ((armPresent_withArm ..).trans p)

theorem safeEntry_arm (u : ArmUnit) (s : State) : (safeEntry s).arm u = (entryArmed s).arm u := by
  rw [safeEntry_eq]
  exact whenPresent_keeps (State.arm · u) (safeWater_arm u) _ _

theorem safeEntry_armAnnounced (h : Announced (entryArmed s) (armTopic u)) : ArmAnnounced (safeEntry s) u := by
  rw [armAnnounced_iff, safeEntry_eq]
  cases s.duties.water
  · exact h
  · exact h.safeWater

theorem setAllClaims_arm_of_safe (safe : isSafe s = true) (u : ArmUnit) : (setAllClaims s).arm u = { s.arm u with
    claim := if armPresent s u = true then some safeClaim else (s.arm u).claim } := by
  rw [setAllClaims_arm, formClaim_safe safe]

/-- FAULT on a SAFE station, spelled out (R68, R140). -/
theorem armFails_of_safe (safe : isSafe s = true) (u : ArmUnit) (c : ArmFault) (a : Arm) : armFails s u c a = { a with
    state := .fault
    cause := c
    list := .none
    remaining := 0
    deadline := none
    record := .none
    engaged := false
    brushOnRun := false
    target := 0
    trim := 0
    pwm := 0
    loadDue := none
    expectSince := none
    levels := holdLevels s.safe.hold (armParams s u)
    claim := some ⟨0, .stop, .stationSafe⟩ } := by
  unfold armFails
  dsimp only
  rw [armHolds_eq, formClaim_safe safe]
  rfl

theorem safeEntry_arm_of_idle (safe : isSafe s = true) (p : armPresent s u = true)
    (idle : (s.arm u).state = .stowed ∨ (s.arm u).state = .fault) :
    (safeEntry s).arm u = { s.arm u with claim := some ⟨0, .stop, .stationSafe⟩ } := by
  obtain ⟨q, arm, -, -, moved, -⟩ := entryArmed_fault u s
  rw [safeEntry_arm, moved, faultEvent_of_idle, arm, setAllClaims_arm_of_safe safe, if_pos p]
  · rfl
  · rw [arm, setAllClaims_arm]; exact .inr idle

theorem safeEntry_arm_of_absent (p : armPresent s u = false) : (safeEntry s).arm u = s.arm u := by
  obtain ⟨q, arm, frame, -, moved, -⟩ := entryArmed_fault u s
  rw [safeEntry_arm, moved, faultEvent_of_idle (.inl (by rw [frame.armPresent_eq, p])), arm, setAllClaims_arm, p]
  rfl

theorem safeEntry_arm_of_active (safe : isSafe s = true) (p : armPresent s u = true) (stowed : (s.arm u).state ≠ .stowed)
    (fault : (s.arm u).state ≠ .fault) : (safeEntry s).arm u = armFails s u .stationSafe (s.arm u)
      ∧ (s.loader.station = .operating → ArmAnnounced (safeEntry s) u) := by
  obtain ⟨q, arm, frame, same, moved, announced⟩ := entryArmed_fault u s
  have present : armPresent q u = true := (frame.armPresent_eq u).trans p
  have faults : faultEvent u .stationSafe q = faultArm u .stationSafe q :=
    faultEvent_of_active present (by rw [arm, setAllClaims_arm]; exact ⟨stowed, fault⟩)
  have safeq : isSafe q = true := (isSafe_of_safe same).trans safe
  refine ⟨?_, fun o => safeEntry_armAnnounced (announced ?_)⟩
  · rw [safeEntry_arm, moved, faults, faultArm_armFails, armFails_of_safe safeq, armFails_of_safe safe, arm, setAllClaims_arm, same,
      frame.armParams_eq]
  · rw [faults]; exact faultArm_announced (frame.loader ▸ o) present

/-! ### The water duty -/

theorem changeWater_water (st : WaterState) (s : State) : (changeWater st s).water = { enterWater s.micros st s.water with
    claim := some (formClaim s (waterOwnClaim s.params.water (enterWater s.micros st s.water))) } := by
  unfold changeWater reformWaterClaim
  rw [(requestCyclic_frame ..).water, (checkUrgency_frame _).water]
  rfl

theorem changeWater_announced (st : WaterState) (o : s.loader.station = .operating) (p : s.duties.water = true) :
    Announced (changeWater st s) .water := by
  have frame := reformWaterClaim_frame (s.withWater (enterWater s.micros st s.water))
  exact announced_requestCyclic (frame.loader ▸ o) (show _ = true from frame.duties ▸ p) (recordBytes ..)

theorem entryArmed_frame (s : State) : KeepsAllButDuties s (entryArmed s) :=
  (entryDriven_frame s).trans ((KeepsAllButDuties.ofArm (faultEvent_frame ..)).trans (.ofArm (faultEvent_frame ..)))

theorem entryArmed_safe (s : State) : (entryArmed s).safe = s.safe :=
  ((faultEvent_frame ..).safe.trans (faultEvent_frame ..).safe).trans (entryDriven_safe s)

theorem entryArmed_water (s : State) : (entryArmed s).water = (setAllClaims s).water :=
  ((faultEvent_frame ..).water.trans (faultEvent_frame ..).water).trans (checkUrgency_frame _).water

theorem entryArmed_water_of_safe (safe : isSafe s = true) (p : s.duties.water = true) :
    (entryArmed s).water = { s.water with claim := some safeClaim } := by
  rw [entryArmed_water, setAllClaims_water, formClaim_safe safe, p]
  rfl

theorem safeWater_of_flowless (h : s.water.state = .off ∨ s.water.state = .dry ∨ s.water.state = .fault) :
    safeWater s = s.withWater { s.water with active := false } := by
  unfold safeWater
  rcases h with h | h | h <;> rw [h]

theorem safeWater_of_flowing (h : s.water.state = .priming ∨ s.water.state = .spraying ∨ s.water.state = .idle) :
    safeWater s = changeWater .off (s.withWater { s.water with active := false }) := by
  unfold safeWater
  rcases h with h | h | h <;> rw [h]

theorem safeEntry_water_of_flowless (safe : isSafe s = true) (p : s.duties.water = true)
    (h : s.water.state = .off ∨ s.water.state = .dry ∨ s.water.state = .fault) :
    (safeEntry s).water = { s.water with active := false, claim := some ⟨0, .stop, .stationSafe⟩ } := by
  have water := entryArmed_water_of_safe safe p
  rw [safeEntry_eq, p, whenPresent_true, safeWater_of_flowless (by rw [water]; exact h), water]
  rfl

theorem safeEntry_water_of_flowing (safe : isSafe s = true) (p : s.duties.water = true)
    (h : s.water.state = .priming ∨ s.water.state = .spraying ∨ s.water.state = .idle) :
    (safeEntry s).water = { s.water with
      state := .off
      active := false
      priming := none
      q := 0
      trim := 0
      saturated := false
      pump := 0
      valves := Vector.replicate 4 false
      expectSince := none
      claim := some ⟨0, .stop, .stationSafe⟩ }
    ∧ (s.loader.station = .operating → Announced (safeEntry s) .water) := by
  have water := entryArmed_water_of_safe safe p
  have frame := entryArmed_frame s
  have still : isSafe (entryArmed s) = true := (isSafe_of_safe (entryArmed_safe s)).trans safe
  have stops : safeEntry s = changeWater .off ((entryArmed s).withWater { (entryArmed s).water with active := false }) := by
    rw [safeEntry_eq, p, whenPresent_true, safeWater_of_flowing (by rw [water]; exact h)]
  rw [stops]
  refine ⟨?_, fun o => changeWater_announced .off (frame.loader ▸ o) (frame.duties ▸ p)⟩
  rw [changeWater_water, formClaim_safe ((isSafe_withWater _).trans still), State.withWater_water, water]
  rfl

theorem safeEntry_water_of_absent (p : s.duties.water = false) : (safeEntry s).water = s.water := by
  rw [safeEntry_eq, p, whenPresent_false, entryArmed_water, setAllClaims_water, p]
  rfl

theorem safeEntry_console (s : State) : (safeEntry s).console = (setAllClaims s).console := by
  have water (q : State) : (safeWater q).console = q.console := by
    have off (x : State) : (changeWater .off x).console = x.console :=
      (requestCyclic_frame .water _).console.trans (checkUrgency_frame _).console
    unfold safeWater
    split
    · exact off _
    · exact off _
    · exact off _
    · rfl
    · rfl
    · rfl
  rw [safeEntry_eq]
  exact (whenPresent_keeps State.console water _ _).trans
    (((faultEvent_frame ..).console.trans (faultEvent_frame ..).console).trans (checkUrgency_frame _).console)

/-! ## The entry -/

/-- A SAFE entry, the flag being set, does what `SafeEntered` says. -/
theorem safeEntered_safeEntry (safe : isSafe s = true) : SafeEntered s (safeEntry s) where
  drive := by
    rw [safeEntry_drive, setAllClaims_drive, formClaim_safe safe]
    unfold safeDrive
    cases s.drive.state <;> rfl
  armStays u p idle := safeEntry_arm_of_idle safe p idle
  armFaults u p stowed fault := by
    rw [← armFails_of_safe safe]
    exact safeEntry_arm_of_active safe p stowed fault
  armAbsent u p := safeEntry_arm_of_absent p
  waterStays p h := safeEntry_water_of_flowless safe p h
  waterStops p h := safeEntry_water_of_flowing safe p h
  waterAbsent p := safeEntry_water_of_absent p
  console := by rw [safeEntry_console, setAllClaims_console, formClaim_safe safe]; rfl
  pace := (safePaced_safeEntry safe).pace
  urgency o p := (safePaced_safeEntry safe).last ((safeEntry_frame s).loader ▸ o) ((safeEntry_frame s).duties ▸ p)

end

end Sys2Proof.Machine
end

section
/-! PROOFS. Requests for events, whole (R56, R58–R60), and events asked for in a command that publishes cyclic frames beside them. -/

namespace Sys2Proof.Machine

section
variable {s t c : State} {topic : Topic} {payload : List Byte}

/-! ## A request at full places (R58, R59) -/

/-- The scheduler once an event has been offered to a full list. -/
theorem requestEvent_pub_of_full (o : s.loader.station = .operating) (full : 4 ≤ placesTaken s)
    {r : List TxEntry × Nat × Bool} (offer : offerFull (eventEntry s topic payload) s.pub.list = r) :
    (requestEvent topic payload s).pub = countDropped r.2.1 { advanceSeq s.pub topic with
      list := if r.2.2 = true then insertNew (eventEntry s topic payload) r.1 else r.1 } := by
  have taken : ¬placesTaken (s.withPub (advanceSeq s.pub topic)) < 4 := Nat.not_lt.2 full
  subst offer
  simp only [requestEvent, o, enqueueEvent, if_neg taken]
  rfl

/-- The scheduler once an event has been offered to four deferred events. -/
theorem requestEvent_pub_of_deferred_full (j : s.loader.station = .joining) (full : 4 ≤ s.pub.deferred.length)
    {r : List TxEntry × Nat × Bool} (offer : offerFull (eventEntry s topic payload) s.pub.deferred = r) :
    (requestEvent topic payload s).pub = countDropped r.2.1 { advanceSeq s.pub topic with
      deferred := if r.2.2 = true then r.1 ++ [eventEntry s topic payload] else r.1 } := by
  have taken : ¬(s.withPub (advanceSeq s.pub topic)).pub.deferred.length < 4 := Nat.not_lt.2 full
  subst offer
  simp only [requestEvent, j, deferEvent, if_neg taken]
  rfl

theorem isHalt_eventEntry_halt (s : State) (payload : List Byte) : isHalt (eventEntry s .halt payload) = true := by
  simp [isHalt, eventEntry, headerTopic_topicHeader]

theorem offerFull_of_discarded (h : topic ≠ .halt ∨ OnlyHalts l) :
    offerFull (eventEntry s topic payload) l = (l, topicNumber topic, false) := by
  have number : headerTopic (eventEntry s topic payload).header = topicNumber topic := headerTopic_topicHeader ..
  rcases h with other | halts
  · rw [offerFull_of_not_halt (eventEntry_not_halt other), number]
  · rw [offerFull_of_onlyHalts halts, number]

/-- What a request for any event makes of the scheduler (R48, R56, R58–R60). -/
theorem askedEvent_requestEvent (s : State) (topic : Topic) (payload : List Byte) :
    AskedEvent s topic payload (requestEvent topic payload s).pub := by
  unfold AskedEvent
  cases station : s.loader.station with
  | operating =>
    refine fun order => ⟨fun free => ⟨_, insertNew_placed order, ?_⟩, fun full => ⟨fun before x after split halt gives => ?_, fun drop => ?_⟩⟩
    · rw [requestEvent_free topic payload station free]
      rfl
    · subst halt
      have offer := offerFull_of_givesWay (isHalt_eventEntry_halt s payload) gives
      have rest : HeaderOrder (before ++ after) :=
        List.Pairwise.sublist (List.Sublist.append_left (List.sublist_cons_self x after) before) (split ▸ order)
      exact ⟨_, insertNew_placed rest, requestEvent_pub_of_full station full (split ▸ offer)⟩
    · exact requestEvent_pub_of_full station full (offerFull_of_discarded drop)
  | joining =>
    refine ⟨requestEvent_deferred station, fun full => ⟨fun before x after split halt gives => ?_, fun drop => ?_⟩⟩
    · subst halt
      have offer := offerFull_of_givesWay (isHalt_eventEntry_halt s payload) gives
      exact requestEvent_pub_of_deferred_full station full (split ▸ offer)
    · exact requestEvent_pub_of_deferred_full station full (offerFull_of_discarded drop)
  | configuring => exact congrArg State.pub (requestEvent_silent topic payload (.inl station))
  | configFault => exact congrArg State.pub (requestEvent_silent topic payload (.inr station))

/-! ## Cyclic frames beside the events -/

/-- Two states of the scheduler between which cyclic frames alone have been built: the events are the same, and a list in header
order stays so. -/
structure CyclicOnly (p q : Publication) : Prop where
  events : SameEvents p q
  order : inOrder p.list → inOrder q.list

theorem CyclicOnly.refl (p : Publication) : CyclicOnly p p := ⟨.refl p, id⟩

theorem CyclicOnly.trans {p q r : Publication} (h : CyclicOnly p q) (k : CyclicOnly q r) : CyclicOnly p r :=
  ⟨h.events.trans k.events, fun o => k.order (h.order o)⟩

/-- Entries replaced by one of their own header keep the order. -/
theorem inOrder_map_replace {e : TxEntry} {l : List TxEntry} (h : inOrder l) :
    inOrder (l.map fun x => if isPendingCyclic e.header x then e else x) := by
  have header (x : TxEntry) : (if isPendingCyclic e.header x then e else x).header = x.header := by
    split
    · rename_i pending
      exact (eq_of_beq (Bool.and_eq_true_iff.1 pending).2).symm
    · rfl
  unfold inOrder
  rw [List.pairwise_map]
  exact h.imp fun {a b} le => by rw [header, header]; exact le

theorem requestCyclic_cyclicOnly (v : CyclicTopic) (s : State) : CyclicOnly s.pub (requestCyclic v s).pub := by
  refine ⟨requestCyclic_sameEvents v s, fun o => ?_⟩
  unfold requestCyclic
  split
  · show inOrder (ite _ _ _)
    split
    · exact inOrder_map_replace o
    · exact insertNew_inOrder o
  · exact o

theorem checkUrgency_cyclicOnly (s : State) : CyclicOnly s.pub (checkUrgency s).pub := by
  rcases checkUrgency_cases s with h | h
  · rw [h]; exact .refl _
  · rw [h]; exact requestCyclic_cyclicOnly ..

theorem ArmMoves.cyclicOnly {u : ArmUnit} (h : ArmMoves u s t) : CyclicOnly s.pub t.pub := by
  induction h with
  | refl => exact .refl _
  | tail _ step ih =>
    refine ih.trans ?_
    cases step with
    | holds x claim => rw [State.withArm_pub]; exact .refl _
    | claims => rw [setArmClaim, State.withArm_pub]; exact .refl _
    | checks => exact checkUrgency_cyclicOnly _
    | asks => exact requestCyclic_cyclicOnly ..

theorem changeWater_cyclicOnly (st : WaterState) (s : State) : CyclicOnly s.pub (changeWater st s).pub :=
  (checkUrgency_cyclicOnly (setWaterClaim (s.withWater (enterWater s.micros st s.water)))).trans (requestCyclic_cyclicOnly ..)

theorem safeWater_cyclicOnly (s : State) : CyclicOnly s.pub (safeWater s).pub := by
  have off := changeWater_cyclicOnly .off (s.withWater { s.water with active := false })
  unfold safeWater
  split
  · exact off
  · exact off
  · exact off
  · exact .refl _
  · exact .refl _
  · exact .refl _

/-- A SAFE entry builds cyclic frames and no event (R186). -/
theorem safeEntry_cyclicOnly (s : State) : CyclicOnly s.pub (safeEntry s).pub := by
  have claimed : CyclicOnly s.pub (entryDriven s).pub := by
    have h := checkUrgency_cyclicOnly (setAllClaims s)
    rw [setAllClaims_pub] at h
    exact h
  have armed := claimed.trans ((faultEvent_armMoves .a .stationSafe _).cyclicOnly.trans (faultEvent_armMoves .b .stationSafe _).cyclicOnly)
  rw [safeEntry_eq]
  cases s.duties.water
  · exact armed
  · exact armed.trans (safeWater_cyclicOnly _)

/-! ## An event asked for after cyclic frames -/

/-- The events of a list in header order, with one more at its place. -/
theorem filter_insertNew {e : TxEntry} (event : isEvent e = true) {l : List TxEntry} (h : inOrder l) :
    (insertNew e l).filter isEvent = insertNew e (l.filter isEvent) := by
  induction l with
  | nil => simp [insertNew, event]
  | cons x rest ih =>
    obtain ⟨first, ordered⟩ := List.pairwise_cons.1 h
    rw [insertNew]
    by_cases before : e.header.toNat < x.header.toNat
    · have ahead : insertNew e ((x :: rest).filter isEvent) = e :: (x :: rest).filter isEvent := by
        cases events : (x :: rest).filter isEvent with
        | nil => rfl
        | cons y more =>
          have mem : y ∈ x :: rest := (List.mem_filter.1 (events ▸ List.mem_cons_self)).1
          have le : x.header.toNat ≤ y.header.toNat := by
            rcases List.mem_cons.1 mem with rfl | later
            · exact Nat.le_refl _
            · exact first y later
          exact if_pos (Nat.lt_of_lt_of_le before le)
      rw [if_pos before, List.filter_cons_of_pos event]
      exact ahead.symm
    · rw [if_neg before, List.filter_cons, List.filter_cons, ih ordered]
      split
      · exact (if_neg before).symm
      · rfl

/-- The event that gives way to a HALT, and the list without it, are a matter of the events alone. -/
theorem highestEvent_filter (l : List TxEntry) :
    (highestEvent l = none ∧ highestEvent (l.filter isEvent) = none)
    ∨ ∃ i j x, highestEvent l = some (i, x) ∧ highestEvent (l.filter isEvent) = some (j, x)
      ∧ (l.eraseIdx i).filter isEvent = (l.filter isEvent).eraseIdx j := by
  induction l with
  | nil => exact .inl ⟨rfl, rfl⟩
  | cons a rest ih =>
    cases ea : isEvent a with
    | false =>
      rw [List.filter_cons_of_neg (by simp [ea])]
      rcases ih with ⟨none, filtered⟩ | ⟨i, j, x, some, filtered, erased⟩
      · exact .inl ⟨by simp [highestEvent, none, ea], filtered⟩
      · exact .inr ⟨i + 1, j, x, by simp [highestEvent, some, ea], filtered, by
          rw [List.eraseIdx_cons_succ, List.filter_cons_of_neg (by simp [ea]), erased]⟩
    | true =>
      rw [List.filter_cons_of_pos ea]
      rcases ih with ⟨none, filtered⟩ | ⟨i, j, x, some, filtered, erased⟩
      · exact .inr ⟨0, 0, a, by simp [highestEvent, none, ea], by simp [highestEvent, filtered, ea], rfl⟩
      · by_cases above : x.header.toNat < a.header.toNat
        · exact .inr ⟨0, 0, a, by simp [highestEvent, some, ea, above], by simp [highestEvent, filtered, ea, above], rfl⟩
        · exact .inr ⟨i + 1, j + 1, x, by simp [highestEvent, some, above], by simp [highestEvent, filtered, above], by
            rw [List.eraseIdx_cons_succ, List.eraseIdx_cons_succ, List.filter_cons_of_pos ea, erased]⟩

theorem offerFull_filter (e : TxEntry) (l : List TxEntry) : (offerFull e (l.filter isEvent)).1 = (offerFull e l).1.filter isEvent
    ∧ (offerFull e (l.filter isEvent)).2 = (offerFull e l).2 := by
  unfold offerFull
  rcases highestEvent_filter l with ⟨none, filtered⟩ | ⟨i, j, x, some, filtered, erased⟩
  · rw [none, filtered]; exact ⟨rfl, rfl⟩
  · rw [some, filtered]
    dsimp only
    split
    · exact ⟨erased.symm, rfl⟩
    · exact ⟨rfl, rfl⟩

/-- Lists of the same events take an offered event the same way. -/
theorem offerFull_of_same_events {e : TxEntry} {l m : List TxEntry} (h : m.filter isEvent = l.filter isEvent) :
    (offerFull e m).1.filter isEvent = (offerFull e l).1.filter isEvent ∧ (offerFull e m).2 = (offerFull e l).2 := by
  obtain ⟨lm, nm⟩ := offerFull_filter e m
  obtain ⟨ll, nl⟩ := offerFull_filter e l
  exact ⟨by rw [← lm, ← ll, h], by rw [← nm, ← nl, h]⟩

theorem offerFull_inOrder (e : TxEntry) {l : List TxEntry} (h : inOrder l) : inOrder (offerFull e l).1 := by
  rcases offerFull_cases e l with ⟨n, full⟩ | ⟨before, x, after, n, split, -, full⟩
  · rw [full]; exact h
  · rw [full]
    rw [split] at h
    exact h.sublist (List.Sublist.append_left (List.sublist_cons_self x after) before)

/-- The event frame of a request reads the scheduler in its topic's next number alone. -/
theorem eventEntry_congr (loader : c.loader = s.loader) (micros : c.micros = s.micros)
    (number : c.pub.nextSeq[topicIndex topic] = s.pub.nextSeq[topicIndex topic]) :
    eventEntry c topic payload = eventEntry s topic payload := by
  simp only [eventEntry, nextNumber, ms, loader, micros, number]

/-- An event asked for after cyclic frames leaves the events as it would before them (R56, R58, R59). -/
theorem requestEvent_cyclicOnly (loader : c.loader = s.loader) (micros : c.micros = s.micros) (link : c.link = s.link)
    (event : topic ∈ [Topic.halt, .notice, .clear, .report]) (h : CyclicOnly s.pub c.pub)
    (ordered : s.loader.station = .operating → HeaderOrder s.pub.list) (payload : List Byte) :
    CyclicOnly (requestEvent topic payload s).pub (requestEvent topic payload c).pub := by
  obtain ⟨⟨pending, deferred, ⟨dropped, lastDropped, flag⟩, numbers⟩, order⟩ := h
  have entry : eventEntry c topic payload = eventEntry s topic payload := eventEntry_congr loader micros (numbers topic event)
  have isEv : isEvent (eventEntry s topic payload) = true := rfl
  have seq (x : Topic) (hx : x ∈ [Topic.halt, .notice, .clear, .report]) : (advanceSeq c.pub topic).nextSeq[topicIndex x]
      = (advanceSeq s.pub topic).nextSeq[topicIndex x] := by
    simp only [advanceSeq, nextNumber, Fin.getElem_fin, Vector.getElem_set]
    split
    · exact congrArg (· + 1) (numbers topic event)
    · exact numbers x hx
  cases station : s.loader.station with
  | operating =>
    have o : inOrder s.pub.list := ordered station
    have places : placesTaken c = placesTaken s := by rw [placesTaken_eq, placesTaken_eq, eventCount, eventCount, link]; exact congrArg (·.length + _) pending
    by_cases free : placesTaken s < 4
    · rw [requestEvent_free topic payload station free, requestEvent_free topic payload (loader ▸ station) (places ▸ free), entry]
      refine ⟨⟨?_, deferred, ⟨dropped, lastDropped, flag⟩, seq⟩, fun _ => insertNew_inOrder (order o)⟩
      exact (filter_insertNew isEv (order o)).trans ((congrArg _ pending).trans (filter_insertNew isEv o).symm)
    · have full : 4 ≤ placesTaken s := Nat.not_lt.1 free
      obtain ⟨same, rest⟩ := offerFull_of_same_events (e := eventEntry s topic payload) pending
      have oc := offerFull_inOrder (eventEntry s topic payload) (order o)
      have os := offerFull_inOrder (eventEntry s topic payload) o
      rw [requestEvent_pub_of_full station full rfl,
        requestEvent_pub_of_full (r := offerFull (eventEntry s topic payload) c.pub.list) (loader ▸ station) (places ▸ full)
          (by rw [entry]), entry, rest]
      refine ⟨⟨?_, deferred, ⟨congrArg (fun n => min 255 (n + 1)) dropped, rfl, rfl⟩, seq⟩, fun _ => ?_⟩
      · simp only [countDropped]
        split
        · exact (filter_insertNew isEv oc).trans ((congrArg _ same).trans (filter_insertNew isEv os).symm)
        · exact same
      · simp only [countDropped]
        split
        · exact insertNew_inOrder oc
        · exact oc
  | joining =>
    have jc : c.loader.station = .joining := loader ▸ station
    by_cases free : s.pub.deferred.length < 4
    · rw [requestEvent_deferred station free, requestEvent_deferred jc (deferred ▸ free), entry]
      exact ⟨⟨pending, congrArg (· ++ _) deferred, ⟨dropped, lastDropped, flag⟩, seq⟩, order⟩
    · have full : 4 ≤ s.pub.deferred.length := Nat.not_lt.1 free
      rw [requestEvent_pub_of_deferred_full station full rfl,
        requestEvent_pub_of_deferred_full (r := offerFull (eventEntry s topic payload) s.pub.deferred) jc (deferred ▸ full)
          (by rw [entry, deferred]), entry]
      exact ⟨⟨pending, rfl, ⟨congrArg (fun n => min 255 (n + 1)) dropped, rfl, rfl⟩, seq⟩, order⟩
  | configuring =>
    rw [requestEvent_silent topic payload (.inl station), requestEvent_silent topic payload (.inl (loader ▸ station))]
    exact ⟨⟨pending, deferred, ⟨dropped, lastDropped, flag⟩, numbers⟩, order⟩
  | configFault =>
    rw [requestEvent_silent topic payload (.inr station), requestEvent_silent topic payload (.inr (loader ▸ station))]
    exact ⟨⟨pending, deferred, ⟨dropped, lastDropped, flag⟩, numbers⟩, order⟩

/-- An event asked for after cyclic frames is asked for beside them. -/
theorem asksEvent_of_cyclicOnly (loader : c.loader = s.loader) (micros : c.micros = s.micros) (link : c.link = s.link)
    (event : topic ∈ [Topic.halt, .notice, .clear, .report]) (h : CyclicOnly s.pub c.pub) (payload : List Byte) :
    AsksEvent s topic payload (requestEvent topic payload c).pub := by
  by_cases ordered : s.loader.station = .operating → HeaderOrder s.pub.list
  · exact ⟨_, askedEvent_requestEvent s topic payload, (requestEvent_cyclicOnly loader micros link event h ordered payload).events⟩
  · obtain ⟨o, unordered⟩ := Classical.not_imp.1 ordered
    refine ⟨_, ?_, .refl _⟩
    unfold AskedEvent
    rw [o]
    exact fun order => absurd order unordered

end

/-- Settles O32: full places are shared out by `offerFull`, everything else is an insertion. -/
theorem eventRequestsKeepTheirPlaces : Obligations.EventRequestsKeepTheirPlaces := fun s topic payload =>
  ⟨_, (requestEvent_frame topic payload s).eq, askedEvent_requestEvent s topic payload⟩

end Sys2Proof.Machine
end

section
/-! PROOFS. A cause report, whole (R183–R186); a SAFE station and a joining one stand still. -/

namespace Sys2Proof.Machine

section
variable {s t r : State} {u : ArmUnit}

/-! ## SAFE entry by a cause report (R183, R184, R185) -/

/-- The scheduler keeps what the statements say of cyclic frames: numbers, timers, last urgency, pending frames. -/
structure CyclicStays (p q : Publication) : Prop where
  kept : ∀ v, CyclicKept v p q
  last : q.lastUrgency = p.lastUrgency
  listed : ∀ e ∈ p.list, e.kind = .cyclic → e ∈ q.list

theorem CyclicStays.refl (p : Publication) : CyclicStays p p := ⟨fun _ => .refl .., rfl, fun _ h _ => h⟩

theorem requestEvent_cyclicStays {topic : Topic} (event : topic ∈ [Topic.halt, .notice, .clear, .report]) (payload : List Byte)
    (s : State) : CyclicStays s.pub (requestEvent topic payload s).pub := by
  obtain ⟨-, last⟩ := requestEvent_timers (s := s) (topic := topic) (payload := payload)
  exact ⟨requestEvent_cyclicKept event, last, fun _ => requestEvent_keeps_cyclic⟩

/-- Cyclic records read neither the link nor the scheduler. -/
theorem Announced.of_stays {v : CyclicTopic} (h : Announced t v) (frame : r = { t with link := r.link, pub := r.pub })
    (stays : CyclicStays t.pub r.pub) : Announced r v := by
  refine h.congr ?_ ?_ ?_ (stays.kept v) stays.listed fun p bytes => ?_
  · rw [frame]
  · rw [frame]
  · rw [frame]
  · rw [frame]; cases v <;> exact bytes

theorem PaceRises.of_stays (h : PaceRises s t) (frame : r = { t with link := r.link, pub := r.pub })
    (stays : CyclicStays t.pub r.pub) : PaceRises s r := by
  obtain ⟨up, still⟩ := h
  obtain ⟨number, timer⟩ := stays.kept .pace
  have rises (last : Urgency) : UrgencyRises r last ↔ UrgencyRises t last := by rw [frame]; exact .rfl
  have urgency : combinedUrgency r = combinedUrgency t := by rw [frame]; rfl
  refine ⟨fun k => ?_, fun k => ?_⟩
  · obtain ⟨announced, last⟩ := up ((rises _).1 k)
    exact ⟨announced.of_stays frame stays, by rw [stays.last, last, urgency]⟩
  · obtain ⟨last, keptNumber, keptTimer⟩ := still (mt (rises _).2 k)
    exact ⟨stays.last.trans last, number.trans keptNumber, timer.trans keptTimer⟩

/-- A SAFE entry stays one when the link and the events of the scheduler move after it. -/
theorem SafeEntered.of_stays (h : SafeEntered s t) (frame : r = { t with link := r.link, pub := r.pub })
    (stays : CyclicStays t.pub r.pub) : SafeEntered s r := by
  have arm (u : ArmUnit) : r.arm u = t.arm u := by rw [frame]; cases u <;> rfl
  have water : r.water = t.water := by rw [frame]
  refine ⟨?_, fun u p i => (arm u).trans (h.armStays u p i), fun u p a b => ?_, fun u p => (arm u).trans (h.armAbsent u p),
    fun p i => water.trans (h.waterStays p i), fun p i => ?_, fun p => water.trans (h.waterAbsent p), ?_, h.pace.of_stays frame stays,
    fun o p => stays.last.trans (h.urgency o p)⟩
  · rw [frame]; exact h.drive
  · obtain ⟨faults, announced⟩ := h.armFaults u p a b
    exact ⟨(arm u).trans faults, fun o => armAnnounced_iff.2 ((armAnnounced_iff.1 (announced o)).of_stays frame stays)⟩
  · obtain ⟨stops, announced⟩ := h.waterStops p i
    exact ⟨water.trans stops, fun o => (announced o).of_stays frame stays⟩
  · rw [frame]; exact h.console

/-- A SAFE entry reads of the station before it the duties, the hold set and, of the scheduler, the cyclic topics. -/
theorem SafeEntered.of_source (h : SafeEntered t r)
    (frame : t = { s with link := t.link, pub := t.pub, safe := t.safe, picture := t.picture })
    (hold : t.safe.hold = s.safe.hold) (stays : CyclicStays s.pub t.pub) : SafeEntered s r := by
  have arm (u : ArmUnit) : t.arm u = s.arm u := by rw [frame]; cases u <;> rfl
  have present (u : ArmUnit) : armPresent t u = armPresent s u := by rw [frame]; cases u <;> rfl
  have params (u : ArmUnit) : armParams t u = armParams s u := by rw [frame]; cases u <;> rfl
  have duties : t.duties = s.duties := by rw [frame]
  have loader : t.loader = s.loader := by rw [frame]
  have water : t.water = s.water := by rw [frame]
  have drive : t.drive = s.drive := by rw [frame]
  have console : t.console = s.console := by rw [frame]
  obtain ⟨number, timer⟩ := stays.kept .pace
  obtain ⟨hdrive, armStays, armFaults, armAbsent, waterStays, waterStops, waterAbsent, hconsole, pace, urgency⟩ := h
  refine ⟨?_, fun u => ?_, fun u => ?_, fun u => ?_, ?_, ?_, ?_, ?_, ?_, ?_⟩
  · rw [← drive, ← duties]; exact hdrive
  · rw [← arm, ← present]; exact armStays u
  · rw [← arm, ← present, ← loader, ← hold, ← params]; exact armFaults u
  · rw [← arm, ← present]; exact armAbsent u
  · rw [← water, ← duties]; exact waterStays
  · rw [← water, ← duties, ← loader]; exact waterStops
  · rw [← water, ← duties]; exact waterAbsent
  · rw [← console, ← duties]; exact hconsole
  · unfold PaceRises at *
    rw [← stays.last]
    obtain ⟨up, still⟩ := pace
    exact ⟨up, fun k => ⟨(still k).1, (still k).2.1.trans number, (still k).2.2.trans timer⟩⟩
  · rw [← loader, ← duties]; exact urgency

/-- What a new cause brings before it is told: its place in the set and, on a station not SAFE, the entry (R183, R184). -/
def causeTaken (c : Cause) (s : State) : State := if isSafe s = true then withCause c s else safeEntry (withCause c s)

theorem reportCause_of_new {c : Cause} (new : hasCause s.safe.causes c = false) : reportCause c s =
    if ownCause c = true then requestEvent .halt (haltRecord c) (causeTaken c s) else causeTaken c s := by
  unfold reportCause
  rw [new]
  rfl

theorem hasCause_of_free (free : isSafe s = false) (c : Cause) : hasCause s.safe.causes c = false := by
  refine Classical.byContradiction fun held => ?_
  have safe := (isSafe_iff s).2 ⟨c, Bool.not_eq_false _ ▸ held⟩
  rw [free] at safe
  cases safe

theorem causeTaken_frame (c : Cause) (s : State) : KeepsAllButDuties s (causeTaken c s) := by
  have added := KeepsAllButDuties.withCauses s (addCause s.safe.causes c)
  unfold causeTaken
  split
  · exact added
  · exact added.trans (safeEntry_frame _)

theorem causeTaken_safe (c : Cause) (s : State) : (causeTaken c s).safe = { s.safe with causes := addCause s.safe.causes c } := by
  unfold causeTaken
  split
  · rfl
  · exact safeEntry_safe _

theorem causeTaken_cyclicOnly (c : Cause) (s : State) : CyclicOnly s.pub (causeTaken c s).pub := by
  unfold causeTaken
  split
  · exact .refl _
  · exact safeEntry_cyclicOnly (withCause c s)

theorem causeTaken_safeEntered (c : Cause) (free : isSafe s = false) : SafeEntered s (causeTaken c s) := by
  have entered := safeEntered_safeEntry (withCause_isSafe c s)
  unfold causeTaken
  rw [free]
  exact entered.of_source rfl rfl (.refl _)

theorem requestEvent_link_pub_frame (topic : Topic) (payload : List Byte) (s : State) : requestEvent topic payload s
    = { s with link := (requestEvent topic payload s).link, pub := (requestEvent topic payload s).pub } := by
  rw [(requestEvent_frame ..).link]
  exact (requestEvent_frame ..).eq

/-- A cause report on a station not SAFE is a SAFE entry (R183, R184). -/
theorem reportCause_safeEntered (c : Cause) (free : isSafe s = false) : SafeEntered s (reportCause c s) := by
  have entered := causeTaken_safeEntered c free
  rw [reportCause_of_new (hasCause_of_free free c)]
  split
  · exact entered.of_stays (requestEvent_link_pub_frame ..) (requestEvent_cyclicStays (by decide) ..)
  · exact entered

/-- A cause report on a SAFE station leaves the duties as they are (R183). -/
theorem reportCause_dutiesStay (c : Cause) (safe : isSafe s = true) : DutiesStay s (reportCause c s) := by
  rcases reportCause_cases c s with same | ⟨-, frame⟩ | ⟨free, -⟩
  · rw [same]; exact ⟨rfl, fun _ => rfl, rfl, rfl⟩
  · exact ⟨frame.drive, fun u => (frame.arm u).trans (withCause_arm c s u), frame.water, frame.console⟩
  · rw [safe] at free; cases free

theorem reportCause_safe_of_new {c : Cause} (new : hasCause s.safe.causes c = false) :
    (reportCause c s).safe = { s.safe with causes := addCause s.safe.causes c } := by
  rw [reportCause_of_new new, ← causeTaken_safe]
  split
  · exact (requestEvent_frame ..).safe
  · rfl

/-- A new own cause asks for its HALT, whatever cyclic frames the entry builds (R185). -/
theorem reportCause_asksHalt {c : Cause} (new : hasCause s.safe.causes c = false) (own : ownCause c = true) :
    AsksEvent s .halt (haltRecord c) (reportCause c s).pub := by
  have frame := causeTaken_frame c s
  rw [reportCause_of_new new, if_pos own]
  exact asksEvent_of_cyclicOnly frame.loader frame.micros frame.link (by decide) (causeTaken_cyclicOnly c s) _

/-! ## What stands still -/

/-- What the two properties read of a station: its state, the SAFE flag, and of each duty its state. -/
structure SameStill (s t : State) : Prop where
  station : t.loader.station = s.loader.station
  safe : isSafe t = isSafe s
  drive : t.drive.state = s.drive.state
  arm : ∀ u, (t.arm u).state = (s.arm u).state ∧ (t.arm u).cause = (s.arm u).cause
  water : t.water.state = s.water.state ∧ t.water.active = s.water.active

/-- A station that stands still while it is joining and while it is SAFE. -/
structure Still (s : State) : Prop where
  joining : JoiningStill s
  safe : SafeStill s

theorem Still.congr (h : Still s) (same : SameStill s t) : Still t := by
  obtain ⟨station, safe, drive, arm, water, active⟩ := same
  obtain ⟨⟨jdrive, jwater, jarms⟩, ⟨sarms, sdrive, swater⟩⟩ := h
  refine ⟨⟨?_, ?_, ?_⟩, ⟨?_, ?_, ?_⟩⟩
  · rw [station, drive]; exact jdrive
  · rw [station, water]; exact jwater
  · rw [station]
    intro j u
    rw [(arm u).1, (arm u).2]
    exact jarms j u
  · rw [safe]
    intro k u
    rw [(arm u).1]
    exact sarms k u
  · rw [safe, drive]; exact sdrive
  · rw [safe, water, active]; exact swater

theorem SameStill.ofPub (h : KeepsAllButPub s t) : SameStill s t :=
  ⟨by rw [h.loader], isSafe_of_safe h.safe, by rw [h.drive], fun u => by rw [h.arm]; exact ⟨rfl, rfl⟩, by rw [h.water]; exact ⟨rfl, rfl⟩⟩

/-- The claims formed anew move nothing. -/
theorem sameStill_setAllClaims (s : State) : SameStill s (setAllClaims s) :=
  ⟨by rw [(setAllClaims_frame s).loader], isSafe_of_safe (setAllClaims_safe s), by rw [setAllClaims_drive],
    fun u => by rw [setAllClaims_arm]; exact ⟨rfl, rfl⟩, by rw [setAllClaims_water]; exact ⟨rfl, rfl⟩⟩

/-- An arm that stands still: STOWED or in FAULT. -/
def ArmStands (a : Arm) : Prop := a.state = .stowed ∨ a.state = .fault

theorem ArmStands.idle {a : Arm} (h : ArmStands a) : armActive a = false := by
  rcases h with h | h <;> simp [armActive, h]

/-- A station in which an arm that stands still is kept so: JOINING, the arm without the cause STATION_SAFE, or SAFE. -/
def holdsStill (s : State) (u : ArmUnit) : Prop :=
  s.loader.station = .joining ∧ (s.arm u).cause ≠ .stationSafe ∨ isSafe s = true

theorem not_operating_and_free (h : holdsStill s u) (o : s.loader.station = .operating) (free : isSafe s = false) : False := by
  rcases h with ⟨j, -⟩ | safe
  · rw [j] at o; cases o
  · rw [safe] at free; cases free

/-- No part of an arm's work moves an arm that stands still in a JOINING or SAFE station (R125, R128, R141). -/
theorem ArmPart.stands (bounded : ArmBounded (armParams s u) (s.arm u)) (still : ArmStands (s.arm u)) (held : holdsStill s u)
    (h : ArmPart u s t) : (t.arm u).state = (s.arm u).state ∧ (t.arm u).cause = (s.arm u).cause := by
  have idle := still.idle
  have same (x : Arm) (state : x.state = (s.arm u).state) (cause : x.cause = (s.arm u).cause) :
      ((s.withArm u x).arm u).state = (s.arm u).state ∧ ((s.withArm u x).arm u).cause = (s.arm u).cause := by
    rw [State.withArm_arm_same]; exact ⟨state, cause⟩
  cases h with
  | read | noted | ready | deflect => exact same _ rfl rfl
  | completes p runs =>
    refine absurd ?_ runs
    rw [bounded.list]
    rcases still with state | state <;> rw [state] <;> rfl
  | faults c n =>
    rcases faultEvent_cases u c s with eq | ⟨-, active, -⟩
    · rw [eq]; exact ⟨rfl, rfl⟩
    · rw [idle] at active; cases active
  | freed p fault free guard =>
    rcases guard with o | cause
    · exact (not_operating_and_free held o free).elim
    · rcases held with ⟨-, other⟩ | safe
      · exact absurd cause other
      · rw [safe] at free; cases free
  | deploys p o free state => exact (not_operating_and_free held o free).elim
  | retracts active | yields active | resumes active => rw [idle] at active; cases active
  | brushed p => exact same _ (periodBrush_only ..).state (periodBrush_only ..).cause
  | window expiry p sweeping =>
    rcases still with state | state <;> rw [state] at sweeping <;> cases sweeping

theorem Still.armPart (h : Still s) (bounded : ArmBounded (armParams s u) (s.arm u)) (part : ArmPart u s t) : Still t := by
  have frame := part.frame
  obtain ⟨⟨jdrive, jwater, jarms⟩, ⟨sarms, sdrive, swater⟩⟩ := h
  have safe := frame.isSafe_eq
  refine ⟨⟨?_, ?_, ?_⟩, ⟨?_, ?_, ?_⟩⟩
  · rw [frame.loader, frame.drive]; exact jdrive
  · rw [frame.loader, frame.water]; exact jwater
  · rw [frame.loader]
    intro j v
    by_cases e : v = u
    · subst e
      obtain ⟨stands, other⟩ := jarms j v
      obtain ⟨state, cause⟩ := part.stands bounded stands (.inl ⟨j, other⟩)
      rw [state, cause]
      exact ⟨stands, other⟩
    · rw [frame.other v e]; exact jarms j v
  · rw [safe]
    intro k v
    by_cases e : v = u
    · subst e
      obtain ⟨state, -⟩ := part.stands bounded (sarms k v) (.inr k)
      rw [state]
      exact sarms k v
    · rw [frame.other v e]; exact sarms k v
  · rw [safe, frame.drive]; exact sdrive
  · rw [safe, frame.water]; exact swater

/-! ### The drive and the water duty -/

/-- In JOINING a PARKED drive stays PARKED, for it leaves PARKED in OPERATING alone (R86). -/
theorem nextDriveState_of_joining {p : DriveParams} {d : Drive} {i : DriveInputs} {vr ceiling expiry : Nat}
    (parked : d.state = .parked) (joining : i.operating = false) : nextDriveState p d i vr ceiling expiry = .parked := by
  rw [nextDriveState_of_parked parked, joining]
  simp

/-- While SAFE a drive that has stopped driving does not start again (R86, R89, R90). -/
theorem nextDriveState_of_safe {p : DriveParams} {d : Drive} {i : DriveInputs} {vr ceiling expiry : Nat}
    (still : d.state ≠ .running ∧ d.state ≠ .standing) (safe : i.safe = true) :
    nextDriveState p d i vr ceiling expiry ≠ .running ∧ nextDriveState p d i vr ceiling expiry ≠ .standing := by
  obtain ⟨running, standing⟩ := still
  unfold nextDriveState
  cases state : d.state with
  | running => exact absurd state running
  | standing => exact absurd state standing
  | parked | held => simp [safe]
  | halting => dsimp only; split <;> decide

/-- While not active the water duty without flow stays without (R156, R159). -/
theorem nextWater_of_flowless {p : WaterParams} {w : Water} {channel : Option ChannelState} {flow expiry : Nat}
    (flowless : w.state = .off ∨ w.state = .dry ∨ w.state = .fault) (inactive : w.active = false) :
    nextWater p w channel flow expiry = .off ∨ nextWater p w channel flow expiry = .dry ∨ nextWater p w channel flow expiry = .fault := by
  cases dry : w.dry with
  | true => exact .inr (.inl (nextWater_of_dry dry))
  | false =>
    rcases flowless with h | h | h
    · exact .inl (nextWater_of_off_waiting dry h (.inl inactive))
    · exact .inl (nextWater_of_refilled dry h)
    · exact .inr (.inr (nextWater_of_fault dry h))

theorem waterActive_of_safe (safe : isSafe s = true) : waterActive s = false := by simp [waterActive, safe]

theorem waterWorked_flowless {due : Nat} (safe : isSafe s = true)
    (flowless : s.water.state = .off ∨ s.water.state = .dry ∨ s.water.state = .fault) :
    ((waterWorked s due).state = .off ∨ (waterWorked s due).state = .dry ∨ (waterWorked s due).state = .fault)
      ∧ (waterWorked s due).active = false := by
  obtain ⟨state, -⟩ := worked_waterState (s := s) (due := due) (w := waterWorked s due) rfl
  obtain ⟨-, -, -, -, active, -⟩ := worked_readings (s := s) (due := due) (w := waterWorked s due) rfl
  have inactive := waterActive_of_safe safe
  refine ⟨?_, active.trans inactive⟩
  rw [state]
  unfold waterNext
  split
  · exact nextWater_of_flowless (w := waterRead s due) flowless inactive
  · exact flowless

theorem Still.withDrive (h : Still s) {d : Drive} (joining : s.loader.station = .joining → d.state = .parked)
    (safe : isSafe s = true → d.state ≠ .running ∧ d.state ≠ .standing) : Still (s.withDrive d) := by
  obtain ⟨⟨-, jwater, jarms⟩, ⟨sarms, -, swater⟩⟩ := h
  exact ⟨⟨joining, jwater, fun j u => by rw [State.withDrive_arm]; exact jarms j u⟩,
    ⟨fun k u => by rw [State.withDrive_arm]; exact sarms k u, safe, swater⟩⟩

theorem Still.withWater (h : Still s) {w : Water} (joining : s.loader.station = .joining → w.state = .off)
    (safe : isSafe s = true → (w.state = .off ∨ w.state = .dry ∨ w.state = .fault) ∧ w.active = false) : Still (s.withWater w) := by
  obtain ⟨⟨jdrive, -, jarms⟩, ⟨sarms, sdrive, -⟩⟩ := h
  exact ⟨⟨jdrive, joining, fun j u => by rw [State.withWater_arm]; exact jarms j u⟩,
    ⟨fun k u => by rw [State.withWater_arm]; exact sarms k u, sdrive, safe⟩⟩

theorem Still.dutyPart (h : Still s) (part : DutyPart s t) : Still t := by
  cases part with
  | driveClaimed p => exact h.withDrive h.joining.drive h.safe.drive
  | console c claim => exact h.congr ⟨rfl, rfl, rfl, fun u => by rw [State.withConsole_arm]; exact ⟨rfl, rfl⟩, rfl, rfl⟩
  | driveWorked expiry p =>
    have state := worked_state (p := s.params.drive) (i := driveInputs s) (pace := paceRun s) (now := s.micros) (expiry := expiry)
      (d := s.drive) (next := some (expiry + 10)) rfl
    refine h.withDrive (fun j => state.trans (nextDriveState_of_joining (h.joining.drive j) ?_)) (fun k => ?_)
    · show operating s = false
      rw [operating, j]; rfl
    · rw [state]
      exact nextDriveState_of_safe (h.safe.drive k) k
  | waterStopped p fault =>
    have entered : Still (s.withWater (enterWater s.micros .off s.water)) :=
      h.withWater (fun _ => rfl) (fun k => ⟨.inl rfl, (h.safe.water k).2⟩)
    exact entered.withWater (fun _ => rfl) (fun k => ⟨.inl rfl, (h.safe.water k).2⟩)
  | waterWorked expiry p run =>
    obtain ⟨state, -⟩ := worked_waterState (s := s) (due := expiry) (w := Sys2Proof.Machine.waterWorked s expiry) rfl
    exact h.withWater (fun j => state.trans ((waterNext_of_joining j).trans (h.joining.water j)))
      (fun k => waterWorked_flowless k (h.safe.water k).1)

/-! ### SAFE entry and release -/

/-- A SAFE entry brings everything carried to a standstill; what is not carried stands still already (R90, R140, R161, R184). -/
theorem still_of_safeEntered (carried : CarriedDutiesOnly s) (h : Still s) (entered : SafeEntered s t)
    (station : t.loader.station = s.loader.station) : Still t := by
  have arm (u : ArmUnit) : ArmStands (t.arm u) ∧ (ArmStands (s.arm u) → (t.arm u).cause = (s.arm u).cause) := by
    cases p : armPresent s u with
    | false =>
      rw [entered.armAbsent u p, carried.arm u p]
      exact ⟨.inl rfl, fun _ => rfl⟩
    | true =>
      by_cases stands : ArmStands (s.arm u)
      · rw [entered.armStays u p stands]
        exact ⟨stands, fun _ => rfl⟩
      · obtain ⟨faults, -⟩ := entered.armFaults u p (fun h => stands (.inl h)) (fun h => stands (.inr h))
        rw [faults]
        exact ⟨.inr rfl, fun h => absurd h stands⟩
  have water : ((t.water.state = .off ∨ t.water.state = .dry ∨ t.water.state = .fault) ∧ t.water.active = false)
      ∧ (s.water.state = .off → t.water.state = .off) := by
    cases p : s.duties.water with
    | false =>
      rw [entered.waterAbsent p, carried.water p]
      exact ⟨⟨.inl rfl, rfl⟩, fun _ => rfl⟩
    | true =>
      by_cases flowless : s.water.state = .off ∨ s.water.state = .dry ∨ s.water.state = .fault
      · rw [entered.waterStays p flowless]
        exact ⟨⟨flowless, rfl⟩, id⟩
      · have flows : s.water.state = .priming ∨ s.water.state = .spraying ∨ s.water.state = .idle := by
          revert flowless; cases s.water.state <;> simp
        obtain ⟨stops, -⟩ := entered.waterStops p flows
        rw [stops]
        exact ⟨⟨.inl rfl, rfl⟩, fun _ => rfl⟩
  obtain ⟨stopped, off⟩ := water
  refine ⟨⟨fun j => ?_, fun j => off (h.joining.water (station ▸ j)), fun j u => ?_⟩, ⟨fun _ u => (arm u).1, fun _ => ?_, fun _ => stopped⟩⟩
  · rw [entered.drive, h.joining.drive (station ▸ j)]
  · obtain ⟨stands, other⟩ := h.joining.arms (station ▸ j) u
    obtain ⟨still, cause⟩ := arm u
    exact ⟨still, by rw [cause stands]; exact other⟩
  · rw [entered.drive]
    cases s.drive.state <;> simp

theorem Still.reportCause (carried : CarriedDutiesOnly s) (h : Still s) (c : Cause) : Still (reportCause c s) := by
  have station : (Machine.reportCause c s).loader.station = s.loader.station := by rw [(reportCause_frame c s).loader]
  cases safe : isSafe s with
  | false => exact still_of_safeEntered carried h (reportCause_safeEntered c safe) station
  | true =>
    obtain ⟨drive, arm, water, -⟩ := reportCause_dutiesStay c safe
    have still : isSafe (Machine.reportCause c s) = true := by
      obtain ⟨-, causes⟩ := reportCause_causes c s
      exact (isSafe_iff _).2 ⟨c, by simp [causes]⟩
    exact h.congr ⟨station, still.trans safe.symm, by rw [drive], fun u => by rw [arm]; exact ⟨rfl, rfl⟩, by rw [water]; exact ⟨rfl, rfl⟩⟩

theorem Still.withLink (h : Still s) (l : Link) : Still (s.withLink l) :=
  h.congr ⟨rfl, rfl, rfl, fun u => by rw [State.withLink_arm]; exact ⟨rfl, rfl⟩, rfl, rfl⟩

theorem Still.returnInHand (h : Still s) : Still (returnInHand s) := by
  rcases returnInHand_cases s with ⟨-, same⟩ | ⟨e, -, same⟩ <;> rw [same]
  · exact h
  · exact (h.withLink _).congr (.ofPub (returnFrame_frame ..))

theorem Still.checkTally (carried : CarriedDutiesOnly s) (h : Still s) : Still (checkTally s) := by
  unfold Machine.checkTally
  split
  · exact (h.withLink (mutedLink (ms s) s.link)).reportCause (carried.ofLink _) .linkMute
  · exact h

theorem Still.linkPart (carried : CarriedDutiesOnly s) (h : Still s) (part : LinkPart s t) : Still t := by
  cases part with
  | contends may =>
    obtain ⟨-, -, -, listed⟩ := mayContend_iff.1 may
    obtain ⟨e, rest, list⟩ := List.exists_cons_of_ne_nil listed
    rw [beginContest_cons list]
    exact (h.congr (.ofPub (.withPub ..))).withLink _
  | lost contends => exact (h.withLink _).returnInHand
  | aborted aborts =>
    have quiet := h.withLink (quietAbort s.link)
    unfold settleAbort
    split
    · exact (quiet.checkTally (carried.ofLink _)).returnInHand
    · exact quiet.returnInHand.checkTally (carried.ofLink _).returnInHand
  | idle | framing | received | begins | won | faulted | unmuted | sent | headDropped => exact h.withLink _

/-! ### Start-up -/

/-- Every duty starts at rest (R86, R124, R150, R201). -/
theorem still_enterJoining (carried : CarriedDutiesOnly s) (c : s.loader.station = .configuring) (m : Image)
    (first : Vector Permille 4) : Still (enterJoining m first s) := by
  obtain ⟨-, drive, arm, water⟩ := carried.configuring c
  have parked : (enterJoining m first s).drive.state = .parked := by
    rw [enterJoining_eq, startDuties_drive]
    split
    · rfl
    · rw [joined_drive, drive]; rfl
  have arms (u : ArmUnit) : ArmStands ((enterJoining m first s).arm u) ∧ ((enterJoining m first s).arm u).cause ≠ .stationSafe := by
    rw [enterJoining_eq, startDuties_arm]
    split
    · unfold ArmStands
      rw [startedArm_state, startedArm_cause]
      rcases stowCheck_cases (joined m first s) u with h | h | h <;> rw [h] <;> decide
    · rw [joined_arm, arm u]
      exact ⟨.inl rfl, show ArmFault.none ≠ .stationSafe by decide⟩
  have off : (enterJoining m first s).water.state = .off ∧ (enterJoining m first s).water.active = false := by
    rw [enterJoining_eq, startDuties_water]
    split
    · exact ⟨rfl, rfl⟩
    · rw [joined_water, water]; exact ⟨rfl, rfl⟩
  obtain ⟨state, inactive⟩ := off
  exact ⟨⟨fun _ => parked, fun _ => state, fun _ u => arms u⟩,
    ⟨fun _ u => (arms u).1, fun _ => by rw [parked]; decide, fun _ => ⟨.inl state, inactive⟩⟩⟩

theorem Still.startPart (carried : CarriedDutiesOnly s) (h : Still s) (part : StartPart s t) : Still t := by
  have leaves (r : State) (station : r.loader.station ≠ .joining) (safe : r.safe = s.safe) (drive : r.drive = s.drive)
      (arm : ∀ u, r.arm u = s.arm u) (water : r.water = s.water) : Still r := by
    refine ⟨⟨fun j => absurd j station, fun j => absurd j station, fun j => absurd j station⟩, ?_⟩
    obtain ⟨arms, hdrive, hwater⟩ := h.safe
    refine ⟨?_, ?_, ?_⟩ <;> rw [isSafe_of_safe safe]
    · exact fun k u => by rw [arm]; exact arms k u
    · rw [drive]; exact hdrive
    · rw [water]; exact hwater
  cases part with
  | readAgain c =>
    refine leaves _ ?_ rfl rfl (fun u => by cases u <;> rfl) rfl
    show s.loader.station ≠ .joining
    rw [c]; decide
  | imageFailed code c => exact leaves _ (show StationState.configFault ≠ .joining by decide) rfl rfl (fun u => by cases u <;> rfl) rfl
  | imageAccepted m first c => exact still_enterJoining carried c m first
  | opened j => exact leaves _ (show StationState.operating ≠ .joining by decide) rfl rfl (fun u => by cases u <;> rfl) rfl

/-! ### The invariant -/

/-- A station that carries its duties only, with its arms within their bounds, that stands still where it must. -/
structure StillKept (s : State) : Prop where
  arms : ArmsKept s
  still : Still s

theorem Still.part (hs : StillKept s) (h : Part s t) : Still t := by
  obtain ⟨⟨carried, bounded⟩, still⟩ := hs
  cases h with
  | start h => exact still.startPart carried h
  | pub h => exact still.congr (.ofPub h.frame)
  | link h => exact still.linkPart carried h
  | picture h => rw [h.eq]; exact still.congr ⟨rfl, rfl, rfl, fun u => by cases u <;> exact ⟨rfl, rfl⟩, rfl, rfl⟩
  | arm u h => exact still.armPart (bounded u) h
  | duty h => exact still.dutyPart h
  | caused c => exact still.reportCause carried c
  | released h =>
    have free := clearCauses_isSafe s
    have joining : Still (clearCauses s) ↔ JoiningStill (clearCauses s) := by
      refine ⟨Still.joining, fun j => ⟨j, ?_, ?_, ?_⟩⟩ <;> (intro k; rw [free] at k; cases k)
    obtain ⟨jdrive, jwater, jarms⟩ := still.joining
    have station : (clearCauses s).loader.station = s.loader.station := by rw [(clearCauses_frame s).loader]
    refine joining.2 ⟨fun j => ?_, fun j => ?_, fun j u => ?_⟩ <;> rw [station] at j
    · rw [clearCauses, setAllClaims_drive]; exact jdrive j
    · rw [clearCauses, setAllClaims_water]; exact jwater j
    · rw [clearCauses, setAllClaims_arm, State.withSafe_arm]; exact jarms j u
  | passes | inputs | flagsCleared => exact still.congr ⟨rfl, rfl, rfl, fun u => by cases u <;> exact ⟨rfl, rfl⟩, rfl, rfl⟩

theorem StillKept.part (hs : StillKept s) (h : Part s t) : StillKept t := ⟨hs.arms.part h, Still.part hs h⟩

theorem still_atReset (held : Bool) (address : BitVec 4) : Still (State.atReset held address) :=
  ⟨⟨(fun j => nomatch j), (fun j => nomatch j), (fun j => nomatch j)⟩,
    ⟨(fun k => nomatch k), (fun k => nomatch k), (fun k => nomatch k)⟩⟩

end

/-- Settles O56: what stands still in a SAFE or a joining station is kept so by every part of a command. -/
theorem safeAndJoiningStationsStandStill : Obligations.SafeAndJoiningStationsStandStill := fun _ _ carried bounded joining safe h => by
  have kept := step_keeps (P := StillKept)
    (fun held address => ⟨⟨.atReset held address, fun u => by cases u <;> exact armBounded_resetArm _ none⟩, still_atReset held address⟩)
    (fun _ k => ⟨⟨k.arms.carried.congr rfl rfl rfl (fun u => by cases u <;> rfl) rfl,
      armsBounded_of_eq k.arms.bounded rfl fun u => by cases u <;> rfl⟩,
      k.still.congr ⟨rfl, rfl, rfl, fun u => by cases u <;> exact ⟨rfl, rfl⟩, rfl, rfl⟩⟩)
    StillKept.part ⟨⟨carried, bounded⟩, ⟨joining, safe⟩⟩ h
  exact ⟨kept.still.joining, kept.still.safe⟩

end Sys2Proof.Machine
end

section
/-! PROOFS. The water duty stays within its bounds, through every part of a command. -/

namespace Sys2Proof.Machine

section
variable {s t : State} {p : WaterParams} {w : Water}

/-! ## The claim's law (R167) -/

/-- The law of the capacity claim, of one claim. -/
def capacityHolds (p : WaterParams) (w : Water) (c : Option Claim) : Prop :=
  ∀ x ∈ c, x.reason = .waterCapacity → w.rate * w.width * x.ceiling ≤ p.qMax * 1000000

theorem capacityHolds_formed (s : State) (p : WaterParams) (w : Water) :
    capacityHolds p w (some (formClaim s (waterOwnClaim p w))) := by
  intro x hx reason
  obtain rfl := Option.mem_some_iff.1 hx
  cases safe : isSafe s with
  | true => rw [formClaim_safe safe] at reason; cases reason
  | false =>
    rw [formClaim_free safe, waterOwnClaim_eq_ite] at *
    split at reason
    · rename_i active
      rw [if_pos active]
      exact capacity_law ..
    · split at reason <;> cases reason

theorem capacityHolds_safe (p : WaterParams) (w : Water) : capacityHolds p w (some ⟨0, .stop, .stationSafe⟩) := by
  intro x hx reason
  obtain rfl := Option.mem_some_iff.1 hx
  cases reason

/-! ## What keeps the bounds -/

theorem WaterBounded.withClaim (h : WaterBounded p w) {c : Option Claim} (law : capacityHolds p w c) :
    WaterBounded p { w with claim := c } :=
  ⟨h.setpoint, h.rest, h.trim, h.pump, h.priming, h.dry, h.inUse, h.active, law⟩

theorem WaterBounded.inactive (h : WaterBounded p w) {c : Option Claim} (law : capacityHolds p w c) :
    WaterBounded p { w with active := false, claim := c } :=
  ⟨h.setpoint, h.rest, h.trim, h.pump, h.priming, h.dry, h.inUse, (fun k => nomatch k), law⟩

/-- A water duty at rest in OFF is within every bounds that its readings meet. -/
theorem waterBounded_of_off (state : w.state = .off) (rest : w.q = 0 ∧ w.saturated = false ∧ w.trim = 0 ∧ w.pump = 0
    ∧ w.valves = Vector.replicate 4 false) (priming : w.priming = none)
    (inUse : w.rate ≤ p.rateMax ∧ w.width ≤ 6000 ∧ w.speed ≤ 6000) (active : w.active = true → 0 < w.rate ∧ 0 < w.width)
    (capacity : capacityHolds p w w.claim) : WaterBounded p w := by
  obtain ⟨q, saturated, trim, pump, valves⟩ := rest
  refine ⟨by rw [q]; exact Nat.zero_le _, fun _ => ⟨q, saturated, trim, pump, valves⟩, by rw [trim]; decide,
    by rw [pump]; exact Nat.zero_le _, ?_, ?_, inUse, active, capacity⟩
  · rw [priming, state]; decide
  · rw [state]; exact fun k => nomatch k

theorem waterBounded_resetWater (p : WaterParams) : WaterBounded p State.resetWater :=
  waterBounded_of_off rfl ⟨rfl, rfl, rfl, rfl, rfl⟩ rfl ⟨Nat.zero_le _, Nat.zero_le _, Nat.zero_le _⟩ (fun k => nomatch k)
    (fun _ hx => nomatch hx)

/-! ## A period (R150–R167) -/

theorem waterRate_le (s : State) : waterRate s ≤ s.params.water.rateMax := by
  unfold waterRate
  split
  · exact Nat.min_le_left ..
  · exact Nat.zero_le _

theorem waterSpeed_le (s : State) : waterSpeed s ≤ 6000 := by
  unfold waterSpeed
  split
  · exact travelSpeed_le _
  · exact Nat.zero_le _

/-- DRY is entered and kept on the dry flag alone (R159). -/
theorem dry_of_nextWater {channel : Option ChannelState} {flow expiry : Nat} (h : nextWater p w channel flow expiry = .dry) :
    w.dry = true := by
  refine Classical.byContradiction fun wet => ?_
  rw [nextWater, if_neg wet] at h
  revert h
  cases w.state with
  | priming =>
    dsimp only
    unfold primingNext
    split
    · decide
    · split
      · split
        · decide
        · split <;> decide
      · split <;> decide
  | off =>
    dsimp only
    split <;> decide
  | spraying | idle =>
    dsimp only
    split
    · decide
    · split <;> decide
  | dry | fault => exact fun h => nomatch h

/-- A move between states leaves the trim as it was, or at 0 (R158, R164). -/
theorem moveWater_trim (now expiry : Nat) (st : WaterState) (w : Water) :
    (moveWater now expiry st w).trim = w.trim ∨ (moveWater now expiry st w).trim = 0 := by
  unfold moveWater enterWater
  split
  · exact .inl rfl
  · split
    · exact .inr rfl
    · dsimp only
      split
      · exact .inl rfl
      · exact .inr rfl

/-- A period keeps the water duty within its bounds (R157, R162–R164, R167). -/
theorem WaterBounded.worked (h : WaterBounded s.params.water s.water) (station : s.loader.station = .joining → s.water.state = .off)
    (run : dutiesRun s = true) (due : Nat) : WaterBounded s.params.water (waterWorked s due) := by
  obtain ⟨w, hw⟩ : ∃ w, w = waterWorked s due := ⟨_, rfl⟩
  obtain ⟨-, rate, width, speed, active, tank⟩ := worked_readings hw
  obtain ⟨state, priming⟩ := worked_waterState hw
  obtain ⟨dry, -, -⟩ := waterRead_of_worked hw
  have claim := worked_waterClaim hw
  have resting := worked_resting hw
  have running := worked_running hw
  have trimmed : -200 ≤ (waterMoved s due).trim ∧ (waterMoved s due).trim ≤ 200 := by
    rcases moveWater_trim s.micros due (waterNext s due) (waterRead s due) with kept | zero
    · rw [waterMoved, kept]; exact h.trim
    · rw [waterMoved, zero]; decide
  rw [← hw]
  clear hw
  refine ⟨?_, resting, ?_, ?_, ?_, ?_, ?_, ?_, ?_⟩
  · cases runs : waterRuns w.state with
    | true => rw [(running runs).1]; exact Nat.min_le_left ..
    | false => rw [(resting runs).1]; exact Nat.zero_le _
  · cases runs : waterRuns w.state with
    | true => rw [(running runs).2.2.2.1]; exact nextTrim_bounds _ _ _ _ trimmed
    | false => rw [(resting runs).2.2.1]; decide
  · cases runs : waterRuns w.state with
    | true => rw [(running runs).2.2.1]; exact clampNat_le ..
    | false => rw [(resting runs).2.2.2.1]; exact Nat.zero_le _
  · rw [priming, state]
    by_cases same : waterNext s due = s.water.state
    · rw [if_pos same, same]; exact h.priming
    · rw [if_neg same]
      split
      · rename_i enters; rw [enters]; exact ⟨fun _ => rfl, fun _ => rfl⟩
      · rename_i leaves; exact ⟨(fun k => nomatch k), fun k => absurd k leaves⟩
  · rw [state, ← dry]
    intro next
    by_cases o : s.loader.station = .operating
    · rw [waterNext_of_operating o] at next
      exact dry_of_nextWater next
    · have j : s.loader.station = .joining := by
        have runs : s.loader.station = .joining ∨ s.loader.station = .operating := by simpa [dutiesRun] using run
        exact runs.resolve_right o
      rw [waterNext_of_joining j, station j] at next
      cases next
  · rw [rate, width, speed]
    exact ⟨waterRate_le s, summedWidth_le _, waterSpeed_le s⟩
  · rw [active, rate, width]
    intro k
    obtain ⟨-, flows, wide, -⟩ := waterActive_iff.1 k
    exact ⟨flows, wide⟩
  · rw [claim]; exact capacityHolds_formed s s.params.water w

/-! ## The invariant -/

theorem WaterBounded.stopped (h : WaterBounded s.params.water s.water) :
    WaterBounded s.params.water (enterWater s.micros .off s.water) :=
  waterBounded_of_off rfl ⟨rfl, rfl, rfl, rfl, rfl⟩ rfl h.inUse h.active h.capacity

/-- A water duty within its bounds, and OFF while the station is joining (R150). -/
structure WaterHeld (s : State) : Prop where
  joining : s.loader.station = .joining → s.water.state = .off
  bounded : WaterBounded s.params.water s.water

theorem WaterHeld.congr (h : WaterHeld s) (loader : t.loader = s.loader) (params : t.params = s.params)
    (water : t.water = s.water) : WaterHeld t := by
  obtain ⟨joining, bounded⟩ := h
  exact ⟨by rw [loader, water]; exact joining, by rw [params, water]; exact bounded⟩

theorem WaterHeld.ofPub (h : WaterHeld s) (frame : KeepsAllButPub s t) : WaterHeld t :=
  h.congr frame.loader frame.params frame.water

theorem WaterHeld.setAllClaims (h : WaterHeld s) : WaterHeld (setAllClaims s) := by
  have frame := setAllClaims_frame s
  refine ⟨?_, ?_⟩
  · rw [frame.loader, setAllClaims_water]; exact h.joining
  · rw [frame.params, setAllClaims_water]
    refine h.bounded.withClaim ?_
    split
    · exact capacityHolds_formed _ _ _
    · exact h.bounded.capacity

theorem WaterHeld.reportCause (h : WaterHeld s) (c : Cause) : WaterHeld (reportCause c s) := by
  have loader : (Machine.reportCause c s).loader = s.loader := (reportCause_frame c s).loader
  have params : (Machine.reportCause c s).params = s.params := (reportCause_frame c s).params
  cases safe : isSafe s with
  | true =>
    obtain ⟨-, -, water, -⟩ := reportCause_dutiesStay c safe
    exact h.congr loader params water
  | false =>
    have entered := reportCause_safeEntered c safe
    cases p : s.duties.water with
    | false => exact h.congr loader params (entered.waterAbsent p)
    | true =>
      by_cases flowless : s.water.state = .off ∨ s.water.state = .dry ∨ s.water.state = .fault
      · have stays := entered.waterStays p flowless
        refine ⟨?_, ?_⟩
        · rw [loader, stays]; exact h.joining
        · rw [params, stays]; exact h.bounded.inactive (capacityHolds_safe _ _)
      · have flows : s.water.state = .priming ∨ s.water.state = .spraying ∨ s.water.state = .idle := by
          revert flowless; cases s.water.state <;> simp
        obtain ⟨stops, -⟩ := entered.waterStops p flows
        refine ⟨fun _ => by rw [stops], ?_⟩
        rw [params, stops]
        exact waterBounded_of_off rfl ⟨rfl, rfl, rfl, rfl, rfl⟩ rfl h.bounded.inUse (fun k => nomatch k) (capacityHolds_safe _ _)

theorem WaterHeld.withLink (h : WaterHeld s) (l : Link) : WaterHeld (s.withLink l) := ⟨h.joining, h.bounded⟩

theorem WaterHeld.checkTally (h : WaterHeld s) : WaterHeld (checkTally s) := by
  unfold Machine.checkTally
  split
  · exact (h.withLink (mutedLink (ms s) s.link)).reportCause .linkMute
  · exact h

theorem WaterHeld.returnInHand (h : WaterHeld s) : WaterHeld (returnInHand s) := by
  rcases returnInHand_cases s with ⟨-, same⟩ | ⟨e, -, same⟩ <;> rw [same]
  · exact h
  · exact (h.withLink _).ofPub (returnFrame_frame ..)

theorem WaterHeld.linkPart (h : WaterHeld s) (part : LinkPart s t) : WaterHeld t := by
  cases part with
  | contends may =>
    obtain ⟨-, -, -, listed⟩ := mayContend_iff.1 may
    obtain ⟨e, rest, list⟩ := List.exists_cons_of_ne_nil listed
    rw [beginContest_cons list]
    exact (h.ofPub (.withPub ..)).withLink _
  | lost contends => exact (h.withLink _).returnInHand
  | aborted aborts =>
    have quiet := h.withLink (quietAbort s.link)
    unfold settleAbort
    split
    · exact quiet.checkTally.returnInHand
    · exact quiet.returnInHand.checkTally
  | idle | framing | received | begins | won | faulted | unmuted | sent | headDropped => exact h.withLink _

theorem startedWater_bounded (s : State) : WaterBounded s.params.water (startedWater s) :=
  waterBounded_of_off rfl ⟨rfl, rfl, rfl, rfl, rfl⟩ rfl ⟨Nat.zero_le _, Nat.zero_le _, Nat.zero_le _⟩ (fun k => nomatch k)
    (capacityHolds_formed s s.params.water (updateTank s.params.water { State.resetWater with
      tank := tankValue s.inputs, due := some (ms s + 20) }))

theorem WaterHeld.startPart (carried : CarriedDutiesOnly s) (h : WaterHeld s) (part : StartPart s t) : WaterHeld t := by
  cases part with
  | imageAccepted m first c =>
    obtain ⟨-, -, -, water⟩ := carried.configuring c
    refine ⟨fun _ => ?_, ?_⟩
    · rw [enterJoining_eq, startDuties_water]
      split
      · rfl
      · rw [joined_water, water]; rfl
    · rw [(enterJoining_frame m first s).params, enterJoining_eq, startDuties_water]
      split
      · exact startedWater_bounded _
      · rw [joined_water, water]; exact waterBounded_resetWater _
  | readAgain c => exact ⟨h.joining, h.bounded⟩
  | imageFailed code c => exact ⟨(fun j => nomatch j), h.bounded⟩
  | opened j => exact ⟨(fun j => nomatch j), h.bounded⟩

theorem WaterHeld.dutyPart (h : WaterHeld s) (part : DutyPart s t) : WaterHeld t := by
  cases part with
  | waterStopped p fault => exact ⟨fun _ => rfl, h.bounded.stopped.withClaim (capacityHolds_formed _ _ _)⟩
  | waterWorked expiry p run =>
    obtain ⟨state, -⟩ := worked_waterState (s := s) (due := expiry) (w := Sys2Proof.Machine.waterWorked s expiry) rfl
    have off : s.loader.station = .joining → (Sys2Proof.Machine.waterWorked s expiry).state = .off :=
      fun j => state.trans ((waterNext_of_joining j).trans (h.joining j))
    exact ⟨off, h.bounded.worked h.joining run expiry⟩
  | driveClaimed | driveWorked | console => exact ⟨h.joining, h.bounded⟩

theorem WaterHeld.part (carried : CarriedDutiesOnly s) (h : WaterHeld s) (part : Part s t) : WaterHeld t := by
  cases part with
  | start part => exact h.startPart carried part
  | pub part => exact h.ofPub part.frame
  | link part => exact h.linkPart part
  | picture part => rw [part.eq]; exact ⟨h.joining, h.bounded⟩
  | arm u part => exact h.congr part.frame.loader part.frame.params part.frame.water
  | duty part => exact h.dutyPart part
  | caused c => exact h.reportCause c
  | released granted => exact WaterHeld.setAllClaims (s := s.withSafe { s.safe with causes := noCauses }) ⟨h.joining, h.bounded⟩
  | passes | inputs | flagsCleared => exact ⟨h.joining, h.bounded⟩

/-- A station that carries its duties only, whose water duty is held within its bounds. -/
structure WaterKept (s : State) : Prop where
  carried : CarriedDutiesOnly s
  held : WaterHeld s

end

/-- Settles O58: the water duty at reset rests, and every part of a command keeps it within its bounds. -/
theorem waterStaysBounded : Obligations.WaterStaysBounded := fun _ _ carried joining bounded h =>
  (step_keeps (P := WaterKept)
    (fun held address => ⟨.atReset held address, (fun j => nomatch j), waterBounded_resetWater _⟩)
    (fun _ k => ⟨k.carried.congr rfl rfl rfl (fun u => by cases u <;> rfl) rfl, k.held.joining, k.held.bounded⟩)
    (fun k part => ⟨k.carried.part part, k.held.part k.carried part⟩) ⟨carried, joining.water, bounded⟩ h).held.bounded

end Sys2Proof.Machine
end

section
/-! PROOFS. The step, station reset, an image that is not read, and CONFIG_FAULT. -/

namespace Sys2Proof.Machine

section
variable {s t : State} {c : Cause} {code : CheckCode}

/-! ## One microsecond (R58) -/

theorem step_of_empty (empty : s.pending = []) : step s = .next (passMicrosecond s) := by
  unfold step
  rw [empty]

theorem passMicrosecond_of_free (free : s.held = false) :
    passMicrosecond s = { settleNotice s with micros := s.micros + 1 } := by
  simp only [passMicrosecond, free, Bool.false_eq_true, if_false]

theorem settleNotice_of_due (h : s.pub.noticeDue = true) :
    settleNotice s = reportDropped (s.withPub { s.pub with noticeDue := false }) := if_pos h

theorem reportDropped_of_barred (h : s.loader.station ≠ .operating ∨ s.pub.dropped = 0 ∨ 4 ≤ placesTaken s) :
    reportDropped s = s := by
  refine if_neg fun asked => ?_
  simp only [Bool.and_eq_true, operating_iff, decide_eq_true_eq] at asked
  obtain ⟨⟨o, d⟩, f⟩ := asked
  rcases h with h | h | h
  · exact h o
  · omega
  · omega

/-! ## Station reset (R195) -/

theorem armAtReset_resetArm : ArmAtReset State.resetArm := by
  refine ⟨rfl, rfl, rfl, rfl, rfl, rfl, rfl, rfl, rfl, rfl, rfl, rfl, rfl, rfl, fun i => ?_, rfl, rfl, rfl, rfl, rfl⟩
  exact Vector.getElem_replicate i.isLt

theorem linkAtReset_resetLink : LinkAtReset State.resetLink :=
  ⟨⟨rfl, rfl, rfl⟩, ⟨rfl, rfl, rfl, rfl, rfl⟩, ⟨rfl, rfl, rfl, rfl, rfl⟩⟩

theorem pubAtReset_withConfigBad (due : Option Nat) : PubAtReset { State.resetPub with configBadDue := due } where
  empty := ⟨rfl, rfl⟩
  timers i := Vector.getElem_replicate i.isLt
  numbers i := Vector.getElem_replicate i.isLt
  counts := ⟨rfl, rfl, rfl⟩
  flags := ⟨rfl, rfl, rfl⟩

/-- A reset leaves the blocks at their reset values, whatever stands in the loader, the link, the scheduler, the cause set and
the queue. -/
theorem blocksAtReset (held : Bool) (address : BitVec 4) (loader : Loader) (at' : loader.address = address) (link : Link)
    (pub : Publication) (causes : CauseSet) (pending : List Instr) : BlocksAtReset { State.atReset held address with
      loader := loader, link := link, pub := pub, safe := ⟨causes, State.allOff⟩, pending := pending } where
  duties := rfl
  timers := ⟨rfl, rfl, rfl⟩
  expecting := ⟨rfl, rfl⟩
  coils := ⟨rfl, rfl, rfl⟩
  periods i := Vector.getElem_replicate i.isLt
  driveBlock := rfl
  waterBlock := rfl
  consoleBlock := rfl
  armBlocks := ⟨rfl, rfl⟩
  table i := congrArg Rule.inUse (Vector.getElem_replicate (a := State.noRule) i.isLt)
  slots n :=
    have empty : (Vector.replicate 32 (⟨none, false⟩ : Slot))[n] = ⟨none, false⟩ := Vector.getElem_replicate n.isLt
    ⟨congrArg Slot.record empty, congrArg Slot.gap empty⟩
  picture := ⟨rfl, rfl, rfl, rfl⟩
  pulse i := Vector.getElem_replicate i.isLt
  distance := ⟨rfl, rfl, rfl⟩
  analog i := by simp [State.atReset, State.resetInputs]
  switches i := by simp [State.atReset, State.resetInputs]
  drive := ⟨rfl, rfl, rfl, rfl, rfl, rfl, rfl, rfl, rfl, rfl, by rw [at']; rfl⟩
  arms := ⟨armAtReset_resetArm, armAtReset_resetArm⟩
  water := ⟨rfl, rfl, rfl, rfl, rfl, rfl, rfl, (fun i => Vector.getElem_replicate i.isLt), rfl, rfl, rfl, rfl, rfl, rfl, rfl⟩
  console := ⟨rfl, rfl, rfl, rfl, rfl, rfl, rfl, rfl, rfl⟩
  hold := ⟨rfl, fun i => Vector.getElem_replicate i.isLt⟩

/-! ## CONFIG_FAULT from CONFIGURING (R200) -/

/-- A SAFE entry with no duty carried and the publication closed moves nothing (R59, R184). -/
theorem safeEntry_of_no_duty (none : s.duties = ⟨false, false, false, false, false⟩) (closed : s.loader.station ≠ .operating)
    (parked : s.drive.state = .parked) : safeEntry s = s := by
  have absent (u : ArmUnit) : armPresent s u = false := by cases u <;> simp [armPresent, none]
  have claimed : checkUrgency (setAllClaims s) = s := by
    have kept : setAllClaims s = s := by simp only [setAllClaims, none, whenPresent_false]
    rw [kept]
    exact checkUrgency_of_not_rises fun rises => closed rises.1
  have still : s.withDrive (safeDrive s.drive) = s := by
    cases s with | mk _ _ _ _ _ _ _ _ _ drive => cases drive; cases parked; rfl
  have driven : entryDriven s = s := by rw [entryDriven, claimed, still]
  have armed : entryArmed s = s := by
    rw [entryArmed, driven, faultEvent_of_idle (.inl (absent .a)), faultEvent_of_idle (.inl (absent .b))]
  rw [safeEntry_eq, armed, none]
  rfl

theorem hasCause_configBad_iff : hasCause s.safe.causes .configBad = s.safe.causes.configBad := rfl

/-- The entry to CONFIG_FAULT of a station that carries no duty, its cause being new. -/
theorem enterConfigFault_of_no_duty (none : s.duties = ⟨false, false, false, false, false⟩) (parked : s.drive.state = .parked)
    (new : s.safe.causes.configBad = false) (code : CheckCode) : enterConfigFault code s = configFaultFrom code s := by
  have taken : causeTaken .configBad (failImage code s) = withCause .configBad (failImage code s) := by
    unfold causeTaken
    split
    · rfl
    · exact safeEntry_of_no_duty none (fun o => by cases o) parked
  rw [enterConfigFault_eq, reportCause_of_new (by exact new), taken]
  exact requestEvent_silent .halt (haltRecord .configBad) (s := withCause .configBad (failImage code s)) (.inr rfl)

theorem parked_of_configuring (carried : CarriedDutiesOnly s) (c : s.loader.station = .configuring) :
    s.duties = ⟨false, false, false, false, false⟩ ∧ s.drive.state = .parked := by
  have none := carried.noneYet (by simp [dutiesRun, c])
  exact ⟨none, by rw [carried.drive (by rw [none])]; rfl⟩

theorem reading_of_configuring (c : s.loader.station = .configuring) (free : s.held = false) : reading s = true := by
  simp [reading, c, free]

theorem exec_imageReadFailed (reads : reading s = true) : exec .imageReadFailed s = .next
    (if s.loader.attempts < 3 then startRead s else enterConfigFault .noMemory s) :=
  congrArg Host.Outcome.next (if_pos reads)

theorem exec_imageReadComplete_of_failed (reads : reading s = true) {image : Vector Byte 1024} {first : Vector Permille 4}
    (failed : failedCheckOf image = some code) : exec (.imageReadComplete image first) s = .next (enterConfigFault code s) := by
  refine congrArg Host.Outcome.next ((if_pos reads).trans ?_)
  rw [failed]

theorem exec_imageReadComplete_of_good (reads : reading s = true) {image : Vector Byte 1024} {first : Vector Permille 4}
    (good : failedCheckOf image = none) : exec (.imageReadComplete image first) s = .next (enterJoining image first s) := by
  refine congrArg Host.Outcome.next ((if_pos reads).trans ?_)
  rw [good]

theorem failedCheckOf_of_crc {image : Vector Byte 1024} (bad : crc16 (image.toList.take 1022) ≠ image[1022] ++ image[1023]) :
    failedCheckOf image = some .imageCrc := if_neg fun agrees => bad ((crcAgrees_iff image).1 agrees)

theorem failedCheckOf_of_field {image : Vector Byte 1024} {before after : List (CheckCode × Bool)}
    (good : crc16 (image.toList.take 1022) = image[1022] ++ image[1023])
    (checks : fieldChecks image = before ++ (code, false) :: after) (pass : ∀ c ∈ before, c.2 = true) :
    failedCheckOf image = some code := by
  have first : (before ++ (code, false) :: after).find? (fun c => !c.2) = some (code, false) := by
    rw [List.find?_append, List.find?_eq_none.2 fun c hc => by simp [pass c hc]]
    rfl
  refine (if_pos ((crcAgrees_iff image).2 good)).trans ?_
  rw [checks, first]
  rfl

/-! ## The CONFIG_BAD timer (R60) -/

theorem exec_configBadTimerExpiry {due : Nat} (fault : s.loader.station = .configFault) (runs : s.pub.configBadDue = some due)
    (expired : due ≤ s.micros / 1000) : exec .configBadTimerExpiry s = .next
      (requestConfigBad (s.withPub { s.pub with configBadDue := some (due + 1000) })) := by
  refine congrArg Host.Outcome.next ?_
  rw [runs]
  exact if_pos (by simp [fault, ms, expired])

theorem requestConfigBad_of_free (failed : s.loader.failedCheck = some code) (free : placesTaken s < 4) :
    requestConfigBad s = s.withPub { advanceSeq s.pub .notice with
      list := insertNew (eventEntry s .notice (noticeRecord .configBad (checkNumber code) 0)) s.pub.list } := by
  unfold requestConfigBad
  rw [failed]
  exact if_pos free

theorem requestConfigBad_of_full (full : 4 ≤ placesTaken s) :
    requestConfigBad s = s.withPub (countDropped (topicNumber .notice) (advanceSeq s.pub .notice)) :=
  if_neg (Nat.not_lt.2 full)

end

/-- Settles O1. -/
theorem stepRunsTheFrontCommand : Obligations.StepRunsTheFrontCommand := fun c rest s front => by
  unfold step
  rw [front]

/-- Settles O2: the NOTICE owed is built when the station is OPERATING with a count and a place, and dropped from what is owed
otherwise. -/
theorem emptyQueueLetsOneMicrosecondPass : Obligations.EmptyQueueLetsOneMicrosecondPass := by
  intro s empty
  rw [step_of_empty empty]
  refine ⟨fun held => congrArg Host.Outcome.next (if_pos held), fun free idle => ?_, fun free owed => ⟨?_, fun barred => ?_⟩⟩
  · rw [passMicrosecond_of_free free, settleNotice_idle idle]
  · intro o counted place order
    refine ⟨_, insertNew_placed order, ?_⟩
    have built := reportDropped_free (s := s.withPub { s.pub with noticeDue := false }) o counted place
    rw [passMicrosecond_of_free free, settleNotice_of_due owed, built]
    rfl
  · have kept := reportDropped_of_barred (s := s.withPub { s.pub with noticeDue := false }) barred
    rw [passMicrosecond_of_free free, settleNotice_of_due owed, kept]
    rfl

/-- Settles O3. -/
theorem powerUpStateMeetsEveryProperty : Obligations.PowerUpStateMeetsEveryProperty := by
  obtain ⟨joining, safe⟩ := still_atReset true 0
  refine ⟨.atReset .., .atReset .., .atReset .., .atReset .., .atReset .., .atReset .., safe, joining,
    driveBounded_resetDrive 0, waterBounded_resetWater _, fun u => ?_⟩
  cases u <;> exact armBounded_resetArm _ none

/-- Settles O4: with the straps at 15 the reset ends in the entry to CONFIG_FAULT, otherwise in the first read's start. -/
theorem resetGivesResetValuesAndSamplesTheStraps : Obligations.ResetGivesResetValuesAndSamplesTheStraps := by
  intro straps s
  refine ⟨⟨_, rfl, rfl, rfl, rfl, rfl, rfl, rfl, rfl, rfl, rfl, rfl, linkAtReset_resetLink, pubAtReset_withConfigBad none,
    blocksAtReset true 0 _ rfl _ _ _ _, rfl⟩, ?_⟩
  by_cases top : straps = 15
  · subst top
    have fault : resetWith 15 = configFaultFrom .address (State.atReset false 15) :=
      enterConfigFault_of_no_duty (s := State.atReset false 15) rfl rfl rfl .address
    refine ⟨_, rfl, ?_⟩
    rw [fault]
    exact ⟨rfl, rfl, rfl, ⟨⟨rfl, rfl, rfl⟩, ⟨rfl, rfl, rfl, rfl, rfl⟩, ⟨rfl, rfl, rfl, rfl, rfl⟩⟩,
      pubAtReset_withConfigBad (some 1000), blocksAtReset false 15 _ rfl _ _ _ _, fun n => absurd rfl n, fun _ => ⟨rfl, rfl, rfl, rfl⟩⟩
  · have read : resetWith straps = startRead (State.atReset false straps) := if_neg top
    refine ⟨_, rfl, ?_⟩
    rw [read]
    exact ⟨rfl, rfl, rfl, linkAtReset_resetLink, pubAtReset_withConfigBad none, blocksAtReset false straps _ rfl _ _ _ _,
      fun _ => ⟨rfl, rfl, rfl⟩, fun eq => absurd eq top⟩

/-- Settles O5. -/
theorem failedReadsAndBadImagesEndInConfigFault : Obligations.FailedReadsAndBadImagesEndInConfigFault := by
  intro s c free
  have reads := reading_of_configuring c free
  refine ⟨fun few => ?_, fun carried new => ?_⟩
  · rw [exec_imageReadFailed reads, if_pos few]
    rfl
  obtain ⟨none, parked⟩ := parked_of_configuring carried c
  have fault := enterConfigFault_of_no_duty none parked new
  refine ⟨fun many => ?_, fun image first => ⟨fun bad => ?_, fun before after code good checks pass => ?_⟩⟩
  · rw [exec_imageReadFailed reads, if_neg (Nat.not_lt.2 many), fault]
  · rw [exec_imageReadComplete_of_failed reads (failedCheckOf_of_crc bad), fault]
  · rw [exec_imageReadComplete_of_failed reads (failedCheckOf_of_field good checks pass), fault]

/-- Settles O9. -/
theorem configBadTimerSendsANotice : Obligations.ConfigBadTimerSendsANotice := by
  intro s due code fault runs expired failed order
  rw [exec_configBadTimerExpiry fault runs expired]
  refine ⟨fun free => ⟨_, insertNew_placed order, ?_⟩, fun full => ?_⟩
  · rw [requestConfigBad_of_free (code := code) (by exact failed) (by exact free)]
    rfl
  · rw [requestConfigBad_of_full (by exact full)]
    rfl

end Sys2Proof.Machine
end

section
/-! PROOFS. What stands until a reset, and the Link Controller's commands. -/

namespace Sys2Proof.Machine

/-! ## What stands until a reset (R1, R47, R180, R182, R188, R195) -/

/-- What no part of a command takes back: the address, the two causes that only a reset ends, and, out of CONFIGURING, what the
image gave. -/
structure Stands (s t : State) : Prop where
  address : t.loader.address = s.loader.address
  conflict : s.safe.causes.addressConflict = true → t.safe.causes.addressConflict = true
  configBad : s.safe.causes.configBad = true → t.safe.causes.configBad = true
  image : s.loader.station ≠ .configuring → t.loader.station ≠ .configuring ∧ t.params = s.params ∧ t.duties = s.duties
    ∧ t.safe.hold = s.safe.hold ∧ t.picture.table = s.picture.table

section
variable {s t r : State} {u : ArmUnit} {e : TxEntry}

theorem Stands.refl (s : State) : Stands s s := ⟨rfl, id, id, fun h => ⟨h, rfl, rfl, rfl, rfl⟩⟩

theorem Stands.trans (h : Stands s t) (k : Stands t r) : Stands s r := by
  refine ⟨k.address.trans h.address, k.conflict ∘ h.conflict, k.configBad ∘ h.configBad, fun c => ?_⟩
  obtain ⟨station, params, duties, hold, table⟩ := h.image c
  obtain ⟨station', params', duties', hold', table'⟩ := k.image station
  exact ⟨station', params'.trans params, duties'.trans duties, hold'.trans hold, table'.trans table⟩

theorem Stands.of_same (loader : t.loader = s.loader) (params : t.params = s.params) (duties : t.duties = s.duties)
    (safe : t.safe = s.safe) (table : t.picture.table = s.picture.table) : Stands s t :=
  ⟨by rw [loader], by rw [safe]; exact id, by rw [safe]; exact id, fun c => ⟨loader ▸ c, params, duties, by rw [safe], table⟩⟩

theorem Stands.ofPub (h : KeepsAllButPub s t) : Stands s t := .of_same h.loader h.params h.duties h.safe (by rw [h.picture])

theorem Stands.ofDuties (h : KeepsAllButDuties s t) (safe : t.safe = s.safe) : Stands s t :=
  .of_same h.loader h.params h.duties safe (by rw [h.picture])

theorem stands_reportCause (c : Cause) (s : State) : Stands s (reportCause c s) := by
  have frame := reportCause_frame c s
  obtain ⟨hold, causes⟩ := reportCause_causes c s
  refine ⟨by rw [frame.loader], fun h => ?_, fun h => ?_, fun h => ?_⟩
  · exact (causes .addressConflict).trans (Bool.or_eq_true_iff.2 (.inr h))
  · exact (causes .configBad).trans (Bool.or_eq_true_iff.2 (.inr h))
  · exact ⟨frame.loader ▸ h, frame.params, frame.duties, hold, by rw [frame.picture]⟩

/-- A release is granted with neither of the two causes held (R188). -/
theorem causes_of_releaseGranted (granted : releaseGranted s = true) :
    s.safe.causes.addressConflict = false ∧ s.safe.causes.configBad = false := by
  simp only [releaseGranted, Bool.and_eq_true, Bool.not_eq_true', List.any_eq_false] at granted
  have stands (c : Cause) (held : c ∈ allCauses) (kept : releasable c = false) : hasCause s.safe.causes c = false := by
    simpa [causeStands, kept] using granted.1 c held
  exact ⟨stands .addressConflict (by decide) rfl, stands .configBad (by decide) rfl⟩

theorem stands_clearCauses (granted : releaseGranted s = true) : Stands s (clearCauses s) := by
  obtain ⟨conflict, configBad⟩ := causes_of_releaseGranted granted
  have frame := clearCauses_frame s
  refine ⟨by rw [frame.loader], fun h => ?_, fun h => ?_, fun h => ?_⟩
  · rw [conflict] at h; cases h
  · rw [configBad] at h; cases h
  · exact ⟨frame.loader ▸ h, frame.params, frame.duties, frame.hold, by rw [frame.picture]⟩

theorem PicturePart.table (part : PicturePart s t) : t.picture.table = s.picture.table := by
  cases part with
  | appended r f =>
    simp only [onPicture, State.withPicture_picture, appendEvent]
    split <;> rfl
  | shortened | storing | stored | aged | taken => rfl

theorem returnInHand_eq (s : State) : returnInHand s =
    { s with link := (returnInHand s).link, pub := (returnInHand s).pub } := by
  rcases returnInHand_cases s with ⟨-, h⟩ | ⟨e, -, h⟩ <;> rw [h]
  have frame := returnFrame_frame e (s.withLink { s.link with inHand := none })
  rw [frame.link]
  exact frame.eq

theorem stands_returnInHand (s : State) : Stands s (returnInHand s) := by
  rw [returnInHand_eq]
  exact .of_same rfl rfl rfl rfl rfl

theorem stands_checkTally (s : State) : Stands s (checkTally s) := by
  unfold checkTally
  split
  · have muted : Stands s (s.withLink (mutedLink (ms s) s.link)) := .of_same rfl rfl rfl rfl rfl
    exact muted.trans (stands_reportCause .linkMute _)
  · exact .refl s

theorem stands_settleAbort (s : State) : Stands s (settleAbort s) := by
  unfold settleAbort
  split
  · exact (stands_checkTally s).trans (stands_returnInHand _)
  · exact (stands_returnInHand s).trans (stands_checkTally _)

theorem stands_onLink (f : Link → Link) (s : State) : Stands s (onLink f s) := .of_same rfl rfl rfl rfl rfl

theorem LinkPart.stands (part : LinkPart s t) : Stands s t := by
  cases part with
  | contends may =>
    obtain ⟨-, -, -, listed⟩ := mayContend_iff.1 may
    obtain ⟨e, rest, list⟩ := List.exists_cons_of_ne_nil listed
    rw [beginContest_cons list]
    exact .of_same rfl rfl rfl rfl rfl
  | lost contends => exact (stands_onLink _ s).trans (stands_returnInHand _)
  | aborted aborts => exact (stands_onLink _ s).trans (stands_settleAbort _)
  | idle | framing | received | begins | won | faulted | unmuted | sent | headDropped => exact stands_onLink _ s

theorem StartPart.stands (part : StartPart s t) : Stands s t := by
  cases part with
  | readAgain c => exact ⟨rfl, id, id, fun n => absurd c n⟩
  | imageFailed code c => exact ⟨rfl, id, id, fun n => absurd c n⟩
  | imageAccepted m first c =>
    have safe : (enterJoining m first s).safe.causes = s.safe.causes := by
      rw [enterJoining_eq, startDuties_safe, joined_safe]
    exact ⟨(enterJoining_loader m first s).2, by rw [safe]; exact id, by rw [safe]; exact id, fun n => absurd c n⟩
  | opened j => exact ⟨rfl, id, id, fun _ => ⟨(fun c => nomatch c), rfl, rfl, rfl, rfl⟩⟩

theorem DutyPart.safe (part : DutyPart s t) : t.safe = s.safe := by cases part <;> rfl

theorem stands_clearFlags (s : State) : Stands s (clearFlags s) := by
  have table : (clearFlags s).picture.table = s.picture.table := by simp only [clearFlags, clearPictureFlags]
  exact Stands.of_same (t := clearFlags s) rfl rfl rfl rfl table

theorem Part.stands (part : Part s t) : Stands s t := by
  cases part with
  | start part => exact part.stands
  | pub part => exact .ofPub part.frame
  | link part => exact part.stands
  | picture part => rw [part.eq]; exact .of_same rfl rfl rfl rfl part.table
  | arm u part => exact .ofDuties (.ofArm part.frame) part.frame.safe
  | duty part => exact .ofDuties part.frame part.safe
  | caused c => exact stands_reportCause c s
  | released granted => exact stands_clearCauses granted
  | passes | inputs => exact .of_same rfl rfl rfl rfl rfl
  | flagsCleared => exact stands_clearFlags s

/-! ## Frames on the wire (R27, R28) -/

theorem append_toNat (a b : Byte) : (a ++ b : Word16).toNat = a.toNat * 256 + b.toNat := by
  have ha := a.isLt
  have hb := b.isLt
  rw [← word_of_bytes, BitVec.toNat_ofNat]
  omega

theorem wordBytes_append (a b : Byte) : wordBytes (a ++ b) = [a, b] := by
  have ha := a.isLt
  have hb := b.isLt
  have high : (a ++ b : Word16).extractLsb' 8 8 = a := by
    refine BitVec.eq_of_toNat_eq ?_
    rw [BitVec.extractLsb'_toNat, append_toNat, Nat.shiftRight_eq_div_pow]
    omega
  have low : (a ++ b : Word16).extractLsb' 0 8 = b := by
    refine BitVec.eq_of_toNat_eq ?_
    rw [BitVec.extractLsb'_toNat, append_toNat, Nat.shiftRight_zero]
    omega
  rw [wordBytes, high, low]

theorem exists_bytes_of_word (w : Word16) : ∃ a b : Byte, w = a ++ b := by
  have hw := w.isLt
  refine ⟨w.extractLsb' 8 8, w.extractLsb' 0 8, ?_⟩
  refine BitVec.eq_of_toNat_eq ?_
  rw [append_toNat, BitVec.extractLsb'_toNat, BitVec.extractLsb'_toNat, Nat.shiftRight_zero, Nat.shiftRight_eq_div_pow]
  omega

theorem coveredBytes_append (c0 c1 seq : Byte) (payload : List Byte) :
    coveredBytes (c0 ++ c1) seq payload = [c0, c1, seq] ++ payload := by
  rw [coveredBytes, wordBytes_append]
  rfl

theorem headerLength_append (c0 c1 : Byte) : headerLength (c0 ++ c1) = c1.toNat % 16 := by
  have h0 := c0.isLt
  have h1 := c1.isLt
  rw [← word_of_bytes, headerLength, BitVec.extractLsb'_toNat, BitVec.toNat_ofNat]
  omega

/-- The frame that its 5 + L characters carry, read back. -/
theorem collectFrame_of_chars {c0 c1 seq k0 k1 : Byte} {payload : List Byte} (whole : payload.length = c1.toNat % 16) :
    frameComplete ([c0, c1, seq] ++ payload ++ [k0, k1]) = true
      ∧ collectFrame ([c0, c1, seq] ++ payload ++ [k0, k1]) = ⟨c0 ++ c1, seq, payload, k0 ++ k1⟩ := by
  have declared : declaredLength ([c0, c1, seq] ++ payload ++ [k0, k1]) = payload.length := whole.symm
  have crc (i : Nat) : ([c0, c1, seq] ++ payload ++ [k0, k1]).getD (3 + i + payload.length) 0 = [k0, k1].getD i 0 := by
    have len : ([c0, c1, seq] ++ payload).length = 3 + payload.length := by simp; omega
    have past : 3 + i + payload.length - ([c0, c1, seq] ++ payload).length = i := by omega
    rw [List.getD_eq_getElem?_getD, List.getElem?_append_right (by omega), past, ← List.getD_eq_getElem?_getD]
  constructor
  · rw [frameComplete, declared]
    simp
    omega
  · rw [collectFrame, declared]
    congr 1
    · simp
    · rw [crc 0, Nat.add_comm 4, show payload.length + 4 = 3 + 1 + payload.length by omega, crc 1]
      rfl

theorem exec_receiveFrameComplete {chars : List Byte} (reads : s.link.receiver = .inFrame) (contend : s.link.transmitter ≠ .contend)
    (send : s.link.transmitter ≠ .send) (complete : frameComplete chars = true) :
    exec (.receiveFrameComplete chars) s = .next (onLink (receiveFrame (collectFrame chars)) s) :=
  congrArg Host.Outcome.next (if_pos (by simp [reads, sendsFrame, contend, send, complete]))

theorem receiveFrame_of_good {f : CollectedFrame} {l : Link} (good : frameGood f = true) :
    receiveFrame f l = holdFrame ⟨.others, f.header, f.seq, f.payload⟩ { l with receiver := .hunt } := if_pos good

theorem receiveFrame_of_bad {f : CollectedFrame} {l : Link} (bad : frameGood f ≠ true) :
    receiveFrame f l = { l with receiver := .hunt, crcFlag := true } := if_neg bad

theorem holdFrame_of_room {f : HeldFrame} {l : Link} (room : l.holding.length < 4) :
    holdFrame f l = { l with holding := l.holding ++ [f] } := if_pos room

theorem holdFrame_of_full {f : HeldFrame} {l : Link} (full : 4 ≤ l.holding.length) :
    holdFrame f l = { l with overrunFlag := true } := if_neg (Nat.not_lt.2 full)

/-! ## The contest (R29, R36) -/

theorem exec_transmitStart_of_barred (barred : mayContend s = false) : exec .transmitStart s = .next s :=
  congrArg Host.Outcome.next (if_neg (by rw [barred]; decide))

theorem exec_frameBegins_of_barred (waits : s.link.receiver = .waiting) (barred : mayContend s = false) :
    exec .frameBegins s = .next { s with link := { s.link with receiver := .inFrame } } := by
  refine congrArg Host.Outcome.next ((if_pos (by rw [waits]; rfl)).trans ?_)
  rw [barred]
  rfl

theorem exec_frameBegins_of_not_waiting (h : s.link.receiver ≠ .waiting) : exec .frameBegins s = .next s :=
  congrArg Host.Outcome.next (if_neg (by simpa using h))

theorem exec_startBit_of_may (may : mayContend s = true) :
    ∀ c ∈ [Instr.transmitStart, Instr.frameBegins], exec c s = .next (beginContest s) := by
  obtain ⟨-, waits, -⟩ := mayContend_iff.1 may
  have start : exec .transmitStart s = .next (beginContest s) := congrArg Host.Outcome.next (if_pos may)
  have begins : exec .frameBegins s = .next (beginContest s) :=
    congrArg Host.Outcome.next ((if_pos (by rw [waits]; rfl)).trans (if_pos may))
  simp only [List.mem_cons, List.not_mem_nil, or_false, forall_eq_or_imp, forall_eq]
  exact ⟨start, begins⟩

/-! ## A frame's return and an abort's end (R38, R39, R41, R57) -/

theorem returnInHand_of_hand (hand : s.link.inHand = some e) :
    returnInHand s = returnFrame e (s.withLink { s.link with inHand := none }) := by
  rcases returnInHand_cases s with ⟨none, -⟩ | ⟨e', hand', eq⟩
  · rw [none] at hand; cases hand
  · rw [hand] at hand'
    cases hand'
    exact eq

theorem returnFrame_withLink (e : TxEntry) (k : Link) (s : State) :
    returnFrame e (s.withLink k) = (returnFrame e s).withLink k := by
  unfold returnFrame
  cases e.kind with
  | event => rfl
  | cyclic => exact (apply_ite (State.withLink · k) (s.pub.list.any (isPendingCyclic e.header) = true) s
      (s.withPub { s.pub with list := insertNew e s.pub.list })).symm

/-- A frame that comes back moves neither numbers nor timers, and loses nothing from the list (R57). -/
theorem returnFrame_cyclicStays (e : TxEntry) (s : State) : CyclicStays s.pub (returnFrame e s).pub
    ∧ (returnFrame e s).pub.nextSeq = s.pub.nextSeq ∧ ∀ x ∈ s.pub.list, x ∈ (returnFrame e s).pub.list := by
  have same : (returnFrame e s).pub = { s.pub with list := (returnFrame e s).pub.list } := by
    unfold returnFrame
    split
    · split <;> rfl
    · rfl
  have listed : ∀ x ∈ s.pub.list, x ∈ (returnFrame e s).pub.list := fun x hx => by
    rcases (returnFrame_list e s).2 with ⟨k, -⟩ | ⟨k, -⟩ | ⟨k, -⟩ <;> rw [k]
    · exact hx
    · exact mem_insertNew.2 (.inr hx)
    · exact mem_insertReturned.2 (.inr hx)
  rw [same]
  exact ⟨⟨fun _ => ⟨rfl, rfl⟩, rfl, fun x hx _ => listed x hx⟩, rfl, listed⟩

theorem returnInHand_cyclicStays (s : State) : CyclicStays s.pub (returnInHand s).pub
    ∧ (returnInHand s).pub.nextSeq = s.pub.nextSeq ∧ ∀ x ∈ s.pub.list, x ∈ (returnInHand s).pub.list := by
  rcases returnInHand_cases s with ⟨-, h⟩ | ⟨e, -, h⟩ <;> rw [h]
  · exact ⟨.refl _, rfl, fun _ => id⟩
  · exact returnFrame_cyclicStays e (s.withLink { s.link with inHand := none })

/-- A frame in hand keeps its place when it comes back (R53, R57). -/
theorem placesTaken_returnInHand (s : State) : placesTaken (returnInHand s) = placesTaken s := by
  rcases returnInHand_cases s with ⟨-, h⟩ | ⟨e, hand, h⟩ <;> rw [h]
  rw [placesTaken_eq, placesTaken_eq, (returnFrame_frame ..).link, State.withLink_link, hand, handCount_some]
  have none : handCount Option.none = 0 := rfl
  rw [none]
  rcases (returnFrame_list e (s.withLink { s.link with inHand := .none })).2 with ⟨k, cyclic⟩ | ⟨k, cyclic, -⟩ | ⟨k, event⟩ <;> rw [k]
  · simp [isEvent, cyclic]
  · rw [eventCount_insertNew]; simp [isEvent, cyclic]
  · rw [eventCount_insertReturned]; simp [isEvent, event, Nat.add_comm]

theorem abortLimit_of_rate {rate : BitRate} (h : s.link.bitRate = some rate) : abortLimit s = s.micros + 12 * bitMicros rate := by
  rw [abortLimit, h]
  rfl

/-! ## A cause and its HALT (R183, R185) -/

theorem addCause_of_held {c : Cause} {set : CauseSet} (held : hasCause set c = true) : addCause set c = set := by
  cases set; cases c <;> cases held <;> rfl

theorem reportCause_safe (c : Cause) (s : State) : (reportCause c s).safe = { s.safe with causes := addCause s.safe.causes c } := by
  cases held : hasCause s.safe.causes c with
  | false => exact reportCause_safe_of_new held
  | true => rw [reportCause_held held, addCause_of_held held]

theorem reportCause_eq_requestEvent {c : Cause} (new : hasCause s.safe.causes c = false) (own : ownCause c = true) :
    reportCause c s = requestEvent .halt (haltRecord c) (causeTaken c s) := (reportCause_of_new new).trans (if_pos own)

theorem causeTaken_haltNumber (c : Cause) (s : State) :
    (causeTaken c s).pub.nextSeq[topicIndex .halt] = s.pub.nextSeq[topicIndex .halt] :=
  (causeTaken_cyclicOnly c s).events.numbers .halt (by decide)

/-- The HALT of a new cause takes its number where events are built (R56, R59, R185). -/
theorem reportCause_haltNumber {c : Cause} (new : hasCause s.safe.causes c = false) (own : ownCause c = true)
    (h : s.loader.station = .operating ∨ s.loader.station = .joining) :
    (reportCause c s).pub.nextSeq[topicIndex .halt] = s.pub.nextSeq[topicIndex .halt] + 1 := by
  rw [← (causeTaken_frame c s).loader] at h
  rw [reportCause_eq_requestEvent new own, requestEvent_seq _ _ h, advanceSeq, nextNumber, causeTaken_haltNumber]
  exact Vector.getElem_set_self ..

/-- On an OPERATING station with a place free the HALT of a new cause stands in the list (R58, R185). -/
theorem reportCause_haltListed {c : Cause} (new : hasCause s.safe.causes c = false) (own : ownCause c = true)
    (o : s.loader.station = .operating) (place : placesTaken s < 4) :
    builtEvent s .halt (haltRecord c) ∈ (reportCause c s).pub.list := by
  have frame := causeTaken_frame c s
  have places : placesTaken (causeTaken c s) = placesTaken s := by
    rw [placesTaken, placesTaken, frame.link]
    exact congrArg (·.length + _) (causeTaken_cyclicOnly c s).events.pending
  rw [reportCause_eq_requestEvent new own, requestEvent_free _ _ (frame.loader ▸ o) (places ▸ place),
    eventEntry_congr frame.loader frame.micros (causeTaken_haltNumber c s)]
  exact mem_insertNew.2 (.inl rfl)

/-- A station that enters MUTE, before the cause is told: its link alone has moved (R41). -/
def muted (s : State) : State := s.withLink (mutedLink (ms s) s.link)

theorem checkTally_of_low (low : s.link.tally < 128) : checkTally s = s := if_neg (Nat.not_le.2 low)

theorem checkTally_of_high (high : 128 ≤ s.link.tally) : checkTally s = reportCause .linkMute (muted s) := if_pos high

theorem settleAbort_of_low (low : s.link.tally < 128) : settleAbort s = returnInHand s := by
  have kept : (returnInHand s).link.tally = s.link.tally := by rw [returnInHand_link]
  rw [settleAbort, checkTally_of_low low, checkTally_of_low (kept ▸ low), ite_self]

/-- What an abort's end in MUTE is made of: the cause told of a station `x` that has the duties of the one before it, its cyclic
frames, numbers and places, and before or after it the frame's return. -/
structure MuteEntered (s x t : State) : Prop where
  source : x = { s with link := x.link, pub := x.pub }
  stays : CyclicStays s.pub x.pub
  numbers : x.pub.nextSeq = s.pub.nextSeq
  places : placesTaken x = placesTaken s
  told : t = { reportCause .linkMute x with link := t.link, pub := t.pub }
  keeps : CyclicStays (reportCause .linkMute x).pub t.pub ∧ t.pub.nextSeq = (reportCause .linkMute x).pub.nextSeq
    ∧ ∀ e ∈ (reportCause .linkMute x).pub.list, e ∈ t.pub.list

/-- Whichever of the MUTE entry and the frame's return comes first (notes/assumptions/8.md). -/
theorem muteEntered_settleAbort (high : 128 ≤ s.link.tally) : ∃ x, MuteEntered s x (settleAbort s) := by
  unfold settleAbort
  split
  · refine ⟨muted s, rfl, .refl _, rfl, rfl, ?_, ?_⟩ <;> rw [checkTally_of_high high]
    · exact returnInHand_eq _
    · exact returnInHand_cyclicStays _
  · have kept : 128 ≤ (returnInHand s).link.tally := by rw [returnInHand_link]; exact high
    obtain ⟨stays, numbers, -⟩ := returnInHand_cyclicStays s
    refine ⟨muted (returnInHand s), ?_, stays, numbers, placesTaken_returnInHand s, ?_, ?_⟩
    · have eq := returnInHand_eq s
      unfold muted
      generalize returnInHand s = q at eq ⊢
      rw [eq]
      rfl
    · rw [checkTally_of_high kept]
    · rw [checkTally_of_high kept]
      exact ⟨.refl _, rfl, fun _ => id⟩

theorem exec_abortEnd {due : Nat} (aborts : s.link.transmitter = .abort) (runs : s.link.abortDue = some due)
    (passed : due ≤ s.micros) : exec .abortEnd s = .next (settleAbort (onLink quietAbort s)) :=
  congrArg Host.Outcome.next (if_pos (by simp [aborts, runs, passed]))

/-! ## Success (R40, R58) -/

theorem exec_transmitSuccess (sends : s.link.transmitter = .send) (hand : s.link.inHand = some e) : exec .transmitSuccess s =
    .next (if isEvent e = true then freePlace (onLink (sendDone e) s) else onLink (sendDone e) s) := by
  refine congrArg Host.Outcome.next ((if_pos (by rw [sends]; rfl)).trans ?_)
  rw [hand]

theorem freePlace_of_idle (h : s.pub.dropped = 0 ∨ s.loader.station ≠ .operating) : freePlace s = s := by
  refine if_neg fun owes => ?_
  simp only [Bool.and_eq_true, operating_iff, decide_eq_true_eq] at owes
  rcases h with h | h
  · omega
  · exact h owes.1

theorem freePlace_of_owing (o : s.loader.station = .operating) (counted : 0 < s.pub.dropped) : freePlace s =
    if Config.noticeFirst s.micros = true then reportDropped s else s.withPub { s.pub with noticeDue := true } :=
  if_pos (by simp [operating_iff.2 o, counted])

theorem sendDone_eq (e : TxEntry) (l : Link) : sendDone e l =
    let quiet := { l with tally := l.tally - 1, transmitter := .quiet, receiver := .hunt, inHand := none }
    if l.holding.length < 4 then { quiet with holding := l.holding ++ [⟨.self, e.header, e.seq, e.payload⟩] }
      else { quiet with overrunFlag := true } := rfl

end

/-- Settles O10: each part of a command keeps what stands until a reset. -/
theorem imageAndConflictStandUntilReset : Obligations.ImageAndConflictStandUntilReset := by
  intro c s t notAsserted notReset h
  have stands : Stands s t := (exec_moves notAsserted notReset h).keep (P := Stands s) (fun k part => k.trans part.stands) (.refl s)
  refine ⟨stands.address, stands.conflict, stands.configBad, fun n => ?_⟩
  obtain ⟨-, params, duties, hold, table⟩ := stands.image n
  exact ⟨params, duties, hold, table⟩

/-- Settles O11. -/
theorem idleAndFramingErrorsMoveTheReceiver : Obligations.IdleAndFramingErrorsMoveTheReceiver := by
  intro s
  refine ⟨fun out => ?_, fun reads contend send => ?_, fun other => ?_⟩
  · have flag : (s.link.receiver == Receiver.inFrame) = decide (s.link.receiver = .inFrame) := by
      cases s.link.receiver <;> rfl
    refine congrArg Host.Outcome.next ((if_pos (by simpa [sampling] using out)).trans ?_)
    rw [onLink, seeIdle, flag]
    rfl
  · exact congrArg Host.Outcome.next (if_pos (by simp [reads, sendsFrame, contend, send]))
  · exact congrArg Host.Outcome.next (if_neg (by simp [other]))

/-- Settles O12. -/
theorem completedFrameIsCheckedAndHeld : Obligations.CompletedFrameIsCheckedAndHeld := by
  intro c0 c1 seq payload k0 k1 s whole reads contend send l good
  obtain ⟨complete, collected⟩ := collectFrame_of_chars (c0 := c0) (seq := seq) (k0 := k0) (k1 := k1) whole
  have judged : frameGood ⟨c0 ++ c1, seq, payload, k0 ++ k1⟩ = true ↔ good := by
    simp only [frameGood, coveredBytes_append, beq_iff_eq, good]
  rw [exec_receiveFrameComplete reads contend send complete, collected]
  refine ⟨fun isGood room => ?_, fun isGood full => ?_, fun bad => ?_⟩
  · rw [onLink, receiveFrame_of_good (judged.2 isGood), holdFrame_of_room (by exact room)]
    rfl
  · rw [onLink, receiveFrame_of_good (judged.2 isGood), holdFrame_of_full (by exact full)]
    rfl
  · rw [onLink, receiveFrame_of_bad (mt judged.1 bad)]
    rfl

/-- Settles O13: the characters are those of a completed frame, whose CRC agrees. -/
theorem sentFrameIsReadBack : Obligations.SentFrameIsReadBack := by
  intro e s whole reads contend send room
  obtain ⟨c0, c1, header⟩ := exists_bytes_of_word e.header
  obtain ⟨k0, k1, crc⟩ := exists_bytes_of_word (crc16 ([c0, c1, e.seq] ++ e.payload))
  rw [header, headerLength_append] at whole
  have chars : frameChars e.header e.seq e.payload = [c0, c1, e.seq] ++ e.payload ++ [k0, k1] := by
    rw [frameChars, header, coveredBytes_append, crc, wordBytes_append]
  obtain ⟨held, -⟩ := completedFrameIsCheckedAndHeld c0 c1 e.seq e.payload k0 k1 s whole reads contend send
  rw [chars, header, headerLength_append]
  refine ⟨?_, held crc room⟩
  simp [whole]
  omega

/-- Settles O14. -/
theorem startBitTakesTheHeadOfTheList : Obligations.StartBitTakesTheHeadOfTheList := by
  intro s
  refine ⟨fun e rest on waits quiet list => ?_, fun waits barred => ?_, fun other => ?_, fun contends => ?_⟩
  · have may : mayContend s = true := mayContend_iff.2 ⟨on, waits, quiet, by rw [list]; exact List.cons_ne_nil _ _⟩
    intro c command
    rw [exec_startBit_of_may may c command, beginContest_cons list]
    rfl
  · have may : mayContend s = false := by
      rw [← Bool.not_eq_true, mayContend_iff]
      rintro ⟨on, -, quiet, listed⟩
      rcases barred with h | h | h
      · exact h on
      · exact listed h
      · exact h quiet
    exact ⟨exec_frameBegins_of_barred waits may, exec_transmitStart_of_barred may⟩
  · have may : mayContend s = false := by
      rw [← Bool.not_eq_true, mayContend_iff]
      exact fun k => other k.2.1
    exact ⟨exec_frameBegins_of_not_waiting other, exec_transmitStart_of_barred may⟩
  · exact congrArg Host.Outcome.next (if_pos (by rw [contends]; rfl))

/-- Settles O15: a lost contest and an abort's end below the MUTE limit are a change of the link and the frame's return. -/
theorem frameNotSentReturnsToTheList : Obligations.FrameNotSentReturnsToTheList := by
  intro s e hand order
  obtain ⟨l, returned, eq⟩ := returnFrame_spec e order
  have list (k : Link) : returnFrame e (s.withLink k) = (s.withPub { s.pub with list := l }).withLink k := by
    rw [returnFrame_withLink, eq]
  refine ⟨l, returned, fun contends => ?_, fun due aborts runs passed low => ?_⟩
  · refine congrArg Host.Outcome.next ((if_pos (by rw [contends]; rfl)).trans ?_)
    rw [returnInHand_of_hand (s := onLink (fun l => { l with transmitter := .quiet }) s) hand]
    exact list _
  · rw [exec_abortEnd aborts runs passed, settleAbort_of_low (by exact low),
      returnInHand_of_hand (s := onLink quietAbort s) hand]
    exact congrArg Host.Outcome.next (list _)

/-- Settles O16. -/
theorem abortsAndMuteRunTheirCourse : Obligations.AbortsAndMuteRunTheirCourse := by
  intro s
  refine ⟨fun rate sends bitRate => ?_, fun e due aborts runs passed hand high => ?_, fun due mute runs passed => ?_⟩
  · refine congrArg Host.Outcome.next ((if_pos (by simpa using sends)).trans ?_)
    rw [abortLimit_of_rate bitRate]
    cases rate <;> rfl
  · refine ⟨_, exec_abortEnd aborts runs passed, ?_⟩
    obtain ⟨x, source, stays, numbers, places, told, keeps, keptNumbers, listed⟩ :=
      muteEntered_settleAbort (s := onLink quietAbort s) high
    have link := settleAbort_link (onLink quietAbort s)
    rw [checkedLink, if_pos (by exact high)] at link
    generalize settleAbort (onLink quietAbort s) = t at *
    have frame := reportCause_frame .linkMute x
    have base : x = { s with link := x.link, pub := x.pub } := source
    have safe : x.safe = s.safe := by rw [base]
    have flag : isSafe x = isSafe s := isSafe_of_safe safe
    have loader : x.loader = s.loader := by rw [base]
    have picture : x.picture = s.picture := by rw [base]
    have whole : x = { s with link := x.link, pub := x.pub, safe := x.safe, picture := x.picture } :=
      base.trans (by rw [safe, picture])
    refine ⟨link, ?_, ?_, ?_, ?_, ?_, ?_, ?_, ?_, ?_, fun free => ?_, fun held => ?_, fun held => ?_, fun new o => ?_⟩
    · rw [told]; exact (reportCause_safe .linkMute x).trans (by rw [safe]; rfl)
    · rw [told]; exact frame.held.trans (by rw [base])
    · rw [told]; exact frame.micros.trans (by rw [base])
    · rw [told]; exact frame.loader.trans loader
    · rw [told]; exact frame.duties.trans (by rw [base])
    · rw [told]; exact frame.params.trans (by rw [base])
    · rw [told]; exact frame.picture.trans (by rw [base])
    · rw [told]; exact frame.inputs.trans (by rw [base])
    · rw [told]; exact frame.pending.trans (by rw [base])
    · exact ((reportCause_safeEntered .linkMute (flag.trans free)).of_source whole (by rw [safe]) stays).of_stays told keeps
    · obtain ⟨drive, arm, water, console⟩ := reportCause_dutiesStay .linkMute (flag.trans held)
      refine ⟨?_, fun u => ?_, ?_, ?_⟩
      · rw [told]; exact drive.trans (by rw [base])
      · rw [told]
        have back : x.arm u = s.arm u := by rw [base]; cases u <;> rfl
        rw [← back, ← arm]
        cases u <;> rfl
      · rw [told]; exact water.trans (by rw [base])
      · rw [told]; exact console.trans (by rw [base])
    · rw [keptNumbers, reportCause_held (by rw [safe]; exact held)]
      exact numbers
    · have free : hasCause x.safe.causes .linkMute = false := by rw [safe]; exact new
      have opened : x.loader.station = .operating := loader ▸ o
      have number := reportCause_haltNumber free rfl (.inl opened)
      refine ⟨by rw [keptNumbers, number, numbers]; rfl, fun place => listed _ ?_⟩
      have built : builtEvent s .halt [3, 5] = builtEvent x .halt (haltRecord .linkMute) := by
        have micros : x.micros = s.micros := by rw [base]
        rw [builtEvent, builtEvent, loader, micros, numbers]
        rfl
      rw [built]
      exact reportCause_haltListed free rfl opened (places ▸ place)
  · exact congrArg Host.Outcome.next (if_pos (by simp [mute, runs, ms, passed]))

/-- Settles O17. -/
theorem transmitSuccessEchoesTheFrame : Obligations.TransmitSuccessEchoesTheFrame := by
  intro s e sends hand quiet done
  have sent : onLink (sendDone e) s = { s with link := done } := rfl
  rw [exec_transmitSuccess sends hand, sent]
  refine ⟨fun pays => ?_, fun event counted o room order => ⟨_, insertNew_placed order, ?_⟩⟩
  · split
    · rename_i event
      rw [freePlace_of_idle]
      exact pays.resolve_left fun cyclic => by simp [isEvent, cyclic] at event
    · rfl
  · have free : placesTaken { s with link := done } < 4 := by
      have inHand : done.inHand = none := by
        show (sendDone e s.link).inHand = none
        exact (holdFrame_fields _ _).2.2.2.1
      rw [placesTaken_eq, inHand]
      exact room
    rw [if_pos (by simp [isEvent, event]), freePlace_of_owing (by exact o) (by exact counted)]
    rw [reportDropped_free (s := { s with link := done }) o counted free]
    cases Config.noticeFirst s.micros <;> rfl

end Sys2Proof.Machine
end

section
/-! PROOFS. The Peer Picture: the filter pass, an address conflict, and what the blocks read of the slots. -/

namespace Sys2Proof.Machine

section
variable {s t : State} {f : HeldFrame} {rest : List HeldFrame} {i : Fin 24} {u : ArmUnit}

/-! ## Rules (R2, R5, R10) -/

theorem ruleMatches_iff {r : Rule} : ruleMatches r f.origin f.header = true ↔ RuleMatches r f := by
  have key (k : Nat) (hk : k < 12) : (headerKey f.header).getLsbD k = f.header.getLsbD (k + 4) := by
    rw [headerKey, BitVec.getLsbD_extractLsb', Nat.add_comm 4]
    simp [hk]
  have masked : headerKey f.header &&& r.mask = r.matchValue &&& r.mask ↔
      ∀ k, k < 12 → r.mask.getLsbD k = true → r.matchValue.getLsbD k = f.header.getLsbD (k + 4) := by
    refine ⟨fun eq k hk marked => ?_, fun same => BitVec.eq_of_getLsbD_eq fun k hk => ?_⟩
    · have bit := congrArg (BitVec.getLsbD · k) eq
      simp only [BitVec.getLsbD_and, marked, Bool.and_true, key k hk] at bit
      exact bit.symm
    · rw [BitVec.getLsbD_and, BitVec.getLsbD_and, key k hk]
      cases marked : r.mask.getLsbD k with
      | false => simp
      | true => rw [same k hk marked]
  simp only [ruleMatches, RuleMatches, Bool.and_eq_true, beq_iff_eq, masked]
  exact and_assoc.trans (and_congr_right fun _ => and_comm)

theorem matchingRule_eq_some_iff {table : Vector Rule 24} : matchingRule table f = some i ↔ FirstMatch table f i := by
  unfold matchingRule ruleNumbers FirstMatch
  simp only [find?_finRange_eq_some_iff, ← ruleMatches_iff, Bool.not_eq_true]

theorem matchingRule_eq_none_iff {table : Vector Rule 24} : matchingRule table f = none ↔ ∀ i : Fin 24, ¬RuleMatches table[i] f := by
  unfold matchingRule ruleNumbers
  simp only [List.find?_eq_none, List.mem_finRange, forall_const, ruleMatches_iff]

theorem ruleStores_iff {r : Rule} : ruleStores r = true ↔ ruleDestination r ≠ .queue := by simp [ruleStores]

theorem namingRule_eq_some_iff {p : Picture} {n : Fin 32} :
    namingRule p.table n = some i ↔ NamesSlot p n i ∧ ∀ j, j < i → ¬NamesSlot p n j := by
  have names (j : Fin 24) : (p.table[j].inUse && ruleStores p.table[j] && p.table[j].slotNumber.toNat == n.val) = true ↔
      NamesSlot p n j := by
    simp only [NamesSlot, Bool.and_eq_true, ruleStores_iff, beq_iff_eq, and_assoc]
  unfold namingRule ruleNumbers
  simp only [find?_finRange_eq_some_iff, ← names, Bool.not_eq_true]

theorem governingRule_eq_some_iff {p : Picture} {n : Fin 32} : governingRule p n = some i ↔ GovernsSlot p n i := by
  unfold governingRule GovernsSlot
  cases p.slots[n].record with
  | some r => exact ⟨fun h => (Option.some.inj h).symm, fun h => by rw [h]⟩
  | none => exact namingRule_eq_some_iff

theorem slotLabel_eq_some_iff {p : Picture} {n : Fin 32} {l : Label} :
    slotLabel p n = some l ↔ ∃ i, GovernsSlot p n i ∧ ruleLabel p.table[i] = l := by
  simp only [slotLabel, Option.map_eq_some_iff, governingRule_eq_some_iff]

theorem slotRequired_iff {p : Picture} {n : Fin 32} :
    slotRequired p n = true ↔ ∃ i, GovernsSlot p n i ∧ (p.table[i]).required = true := by
  simp only [slotRequired, ← governingRule_eq_some_iff]
  cases governingRule p n with
  | none => simp
  | some i => simp

/-! ## Fields and labels (R18, R19, R209) -/

theorem labelOfCode_eq (n : Nat) : labelOfCode n =
    [Label.plain, .paceIn, .travelIn, .operatorIn, .armIn, .waterIn, .haltIn, .noticeIn, .controlIn][n]? := by
  match n with
  | 0 | 1 | 2 | 3 | 4 | 5 | 6 | 7 | 8 => rfl
  | n + 9 => rfl

theorem byteAt_eq (bytes : List Byte) (k : Nat) : byteAt bytes k = match bytes[k]? with | some b => b.toNat | none => 0 := by
  rw [byteAt, List.getD_eq_getElem?_getD]
  cases bytes[k]? <;> rfl

theorem byteAt_of_some {bytes : List Byte} {k : Nat} {b : Byte} (h : bytes[k]? = some b) : byteAt bytes k = b.toNat := by
  rw [byteAt_eq, h]

theorem wordAt_of_some {bytes : List Byte} {k : Nat} {b0 b1 : Byte} (h0 : bytes[k]? = some b0) (h1 : bytes[k + 1]? = some b1) :
    wordAt bytes k = b0.toNat * 256 + b1.toNat := by
  rw [wordAt, if_pos (List.getElem?_eq_some_iff.1 h1).1, byteAt_of_some h0, byteAt_of_some h1]

theorem longAt_of_some {bytes : List Byte} {k : Nat} {b0 b1 b2 : Byte} (h0 : bytes[k]? = some b0) (h1 : bytes[k + 1]? = some b1)
    (h2 : bytes[k + 2]? = some b2) : longAt bytes k = b0.toNat * 65536 + b1.toNat * 256 + b2.toNat := by
  rw [longAt, if_pos (List.getElem?_eq_some_iff.1 h2).1, byteAt_of_some h0, byteAt_of_some h1, byteAt_of_some h2]

theorem heardRecord_eq_some_iff {p : Picture} {l : Label} {topic : Topic} {r : SlotRecord} :
    heardRecord p l topic = some r ↔ ReadAsOne p l topic r := by
  have first (n : Fin 32) : (slotsOf p l).head? = some n ↔ slotLabel p n = some l ∧ ∀ m, m < n → slotLabel p m ≠ some l := by
    rw [slotsOf, List.head?_filter]
    unfold slotNumbers
    simp only [find?_finRange_eq_some_iff, beq_iff_eq, beq_eq_false_iff_ne]
  unfold heardRecord ReadAsOne
  cases head : (slotsOf p l).head? with
  | none =>
    refine ⟨(fun h => nomatch h), ?_⟩
    rintro ⟨n, label, least, -⟩
    rw [(first n).2 ⟨label, least⟩] at head
    cases head
  | some n =>
    obtain ⟨label, least⟩ := (first n).1 head
    have only (m : Fin 32) (label' : slotLabel p m = some l) (least' : ∀ k, k < m → slotLabel p k ≠ some l) : m = n :=
      Option.some.inj (((first m).2 ⟨label', least'⟩).symm.trans head)
    cases record : p.slots[n].record with
    | none =>
      refine ⟨fun h => (by simp only [record] at h; cases h), ?_⟩
      rintro ⟨m, label', least', held, -⟩
      rw [only m label' least', record] at held
      cases held
    | some r' =>
      simp only [record, Option.ite_none_right_eq_some, Bool.and_eq_true, recordHeard_iff, beq_iff_eq, Option.some.injEq]
      constructor
      · rintro ⟨⟨heard, own⟩, rfl⟩
        exact ⟨n, label, least, record, heard, own⟩
      · rintro ⟨m, label', least', held, heard, own⟩
        rw [only m label' least', record] at held
        cases held
        exact ⟨⟨heard, own⟩, rfl⟩

/-! ## The filter pass (R3, R4, R5, R6, R7) -/

theorem exec_filterPass (out : s.loader.station ≠ .configuring) (idle : s.picture.store = none) (held : s.link.holding = f :: rest) :
    exec .filterPass s = .next (filterFrame f s) := by
  refine congrArg Host.Outcome.next ((if_pos (by simp [sampling, out, idle])).trans ?_)
  rw [held]
  rfl

theorem addressConflict_iff : addressConflict s f = true ↔
    f.origin = .others ∧ s.loader.address ≠ 15 ∧ headerSource f.header = s.loader.address := by
  simp only [addressConflict, Bool.and_eq_true, beq_iff_eq, bne_iff_ne, ne_eq, and_assoc]

/-- The station that a pass filters its frame on: the address check taken (R4). -/
def addressChecked (f : HeldFrame) (s : State) : State :=
  if addressConflict s f = true then reportCause .addressConflict s else s

theorem filterFrame_of_no_match (h : matchingRule (addressChecked f s).picture.table f = none) :
    filterFrame f s = dropHead (addressChecked f s) := by
  have eq : filterFrame f s = match matchingRule (addressChecked f s).picture.table f with
      | none => dropHead (addressChecked f s)
      | some i => deliver i f (addressChecked f s) := rfl
  rw [eq, h]

theorem filterFrame_of_match (h : matchingRule (addressChecked f s).picture.table f = some i) :
    filterFrame f s = deliver i f (addressChecked f s) := by
  have eq : filterFrame f s = match matchingRule (addressChecked f s).picture.table f with
      | none => dropHead (addressChecked f s)
      | some i => deliver i f (addressChecked f s) := rfl
  rw [eq, h]

theorem addressChecked_of_no_new_conflict (h : f.origin = .self ∨ s.loader.address = 15 ∨ headerSource f.header ≠ s.loader.address
    ∨ s.safe.causes.addressConflict = true) : addressChecked f s = s := by
  unfold addressChecked
  split
  · rename_i conflict
    obtain ⟨others, own, source⟩ := addressConflict_iff.1 conflict
    rcases h with h | h | h | h
    · rw [others] at h; cases h
    · exact absurd h own
    · exact absurd source h
    · exact reportCause_held h
  · rfl

theorem dropHead_of_cons (held : s.link.holding = f :: rest) : dropHead s = { s with link := { s.link with holding := rest } } := by
  rw [dropHead, onLink, held]
  rfl

theorem deliver_of_short (short : headerLength f.header < (s.picture.table[i]).minLength.toNat) :
    deliver i f s = dropHead (onPicture (fun p => { p with shortPayload := true }) s) := if_pos short

section
variable (long : (s.picture.table[i]).minLength.toNat ≤ headerLength f.header)
include long

theorem deliver_of_queue (h : ruleDestination s.picture.table[i] = .queue) :
    deliver i f s = dropHead (onPicture (appendEvent (eventOf s.picture.table[i] f)) s) := by
  refine (if_neg (Nat.not_lt.2 long)).trans ?_
  rw [h]

theorem deliver_of_slot (h : ruleDestination s.picture.table[i] = .slot) :
    deliver i f s = onPicture (fun p => { p with store := some i }) s := by
  refine (if_neg (Nat.not_lt.2 long)).trans ?_
  rw [h]

theorem deliver_of_slotAndQueue (h : ruleDestination s.picture.table[i] = .slotAndQueue) :
    deliver i f s = onPicture (fun p => { appendEvent (eventOf s.picture.table[i] f) p with store := some i }) s := by
  refine (if_neg (Nat.not_lt.2 long)).trans ?_
  rw [h]

end

/-- What a pass makes of its frame once the address is checked: link and picture alone, the table and the slots as they were. -/
structure Filtered (s t : State) : Prop where
  frame : t = { s with link := t.link, picture := t.picture }
  table : t.picture.table = s.picture.table
  slots : t.picture.slots = s.picture.slots

theorem appendEvent_keeps (e : EventEntry) (p : Picture) :
    (appendEvent e p).table = p.table ∧ (appendEvent e p).slots = p.slots := by
  unfold appendEvent
  split <;> exact ⟨rfl, rfl⟩

theorem filtered_deliver (i : Fin 24) (f : HeldFrame) (s : State) : Filtered s (deliver i f s) := by
  by_cases short : headerLength f.header < (s.picture.table[i]).minLength.toNat
  · rw [deliver_of_short short]; exact ⟨rfl, rfl, rfl⟩
  · have long := Nat.not_lt.1 short
    obtain ⟨table, slots⟩ := appendEvent_keeps (eventOf s.picture.table[i] f) s.picture
    cases h : ruleDestination s.picture.table[i] with
    | queue => rw [deliver_of_queue long h]; exact ⟨rfl, table, slots⟩
    | slot => rw [deliver_of_slot long h]; exact ⟨rfl, rfl, rfl⟩
    | slotAndQueue => rw [deliver_of_slotAndQueue long h]; exact ⟨rfl, table, slots⟩

theorem filtered_filterFrame (f : HeldFrame) (s : State) : Filtered (addressChecked f s) (filterFrame f s) := by
  cases h : matchingRule (addressChecked f s).picture.table f with
  | none => rw [filterFrame_of_no_match h]; exact ⟨rfl, rfl, rfl⟩
  | some i => rw [filterFrame_of_match h]; exact filtered_deliver i f _

/-! ## A SAFE entry and the picture (R184) -/

/-- Nothing that a SAFE entry announces reads the picture. -/
theorem Announced.withPicture {v : CyclicTopic} (h : Announced s v) (p : Picture) : Announced (s.withPicture p) v :=
  h.congr rfl rfl rfl (.refl ..) (fun _ mem _ => mem) fun _ bytes => by cases v <;> exact bytes

theorem SafeEntered.withPicture (h : SafeEntered s t) (p : Picture) : SafeEntered s (t.withPicture p) := by
  have arm (u : ArmUnit) : (t.withPicture p).arm u = t.arm u := State.withPicture_arm ..
  obtain ⟨drive, armStays, armFaults, armAbsent, waterStays, waterStops, waterAbsent, console, ⟨up, still⟩, urgency⟩ := h
  refine ⟨drive, fun u q i => (arm u).trans (armStays u q i), fun u q a b => ?_, fun u q => (arm u).trans (armAbsent u q),
    waterStays, fun q i => ?_, waterAbsent, console, ⟨fun k => ?_, still⟩, urgency⟩
  · obtain ⟨faults, announced⟩ := armFaults u q a b
    exact ⟨(arm u).trans faults, fun o => armAnnounced_iff.2 ((armAnnounced_iff.1 (announced o)).withPicture p)⟩
  · obtain ⟨stops, announced⟩ := waterStops q i
    exact ⟨stops, fun o => (announced o).withPicture p⟩
  · obtain ⟨announced, last⟩ := up k
    exact ⟨announced.withPicture p, last⟩

end

/-- Settles O18. -/
theorem filterPassFollowsTheFirstMatch : Obligations.FilterPassFollowsTheFirstMatch := by
  intro s f rest out idle held known gone
  have checked := addressChecked_of_no_new_conflict known
  rw [exec_filterPass out idle held]
  refine ⟨fun none => ?_, fun i first => ?_⟩
  · rw [filterFrame_of_no_match (by rw [checked]; exact matchingRule_eq_none_iff.2 none), checked, dropHead_of_cons held]
  · intro r entry
    rw [filterFrame_of_match (by rw [checked]; exact matchingRule_eq_some_iff.2 first), checked]
    refine ⟨fun short => ?_, fun long => ⟨fun queue => ?_, fun slot => ?_, fun both => ?_⟩⟩
    · rw [deliver_of_short short, dropHead_of_cons (by exact held)]
      rfl
    · rw [deliver_of_queue long queue, dropHead_of_cons (by exact held)]
      rfl
    · rw [deliver_of_slot long slot]
      rfl
    · rw [deliver_of_slotAndQueue long both]
      rfl

/-- Settles O20: the cause is told first, and the frame filtered on the station that is left. -/
theorem ownAddressFromOthersIsAConflict : Obligations.OwnAddressFromOthersIsAConflict := by
  intro s f rest out idle held others own source new gone
  have checked : addressChecked f s = reportCause .addressConflict s := if_pos (addressConflict_iff.2 ⟨others, own, source⟩)
  have frame := reportCause_frame .addressConflict s
  have told : hasCause s.safe.causes .addressConflict = false := new
  have held' : (reportCause .addressConflict s).link.holding = f :: rest := by rw [frame.link, held]
  have head : dropHead (reportCause .addressConflict s) = { reportCause .addressConflict s with link := gone } := by
    rw [dropHead_of_cons held', frame.link]
  have table := frame.picture
  have left : { (reportCause .addressConflict s).link with holding := rest } = gone :=
    congrArg (fun l : Link => { l with holding := rest }) frame.link
  refine ⟨_, exec_filterPass out idle held, ?_⟩
  obtain ⟨eq, sameTable, sameSlots⟩ := filtered_filterFrame f s
  have noMatch : (∀ i : Fin 24, ¬RuleMatches s.picture.table[i] f) →
      (filterFrame f s).picture = s.picture ∧ (filterFrame f s).link = gone := fun none => by
    rw [filterFrame_of_no_match (by rw [checked, table]; exact matchingRule_eq_none_iff.2 none), checked, head]
    exact ⟨table, rfl⟩
  have matched (i : Fin 24) (first : FirstMatch s.picture.table f i) :
      filterFrame f s = deliver i f (reportCause .addressConflict s) := by
    rw [filterFrame_of_match (by rw [checked, table]; exact matchingRule_eq_some_iff.2 first), checked]
  rw [checked] at eq sameTable sameSlots
  generalize filterFrame f s = t at *
  have pub : t.pub = (reportCause .addressConflict s).pub := by rw [eq]
  refine ⟨?_, ?_, ?_, ?_, ?_, ?_, ?_, ?_, fun free => ?_, fun safe => ?_, sameTable.trans (by rw [table]),
    sameSlots.trans (by rw [table]), noMatch, fun i first => ?_, fun built => ?_, ?_⟩
  · rw [eq]; exact reportCause_safe_of_new told
  · rw [eq]; exact frame.loader
  · rw [eq]; exact frame.inputs
  · rw [eq]; exact frame.params
  · rw [eq]; exact frame.duties
  · rw [eq]; exact frame.micros
  · rw [eq]; exact frame.held
  · rw [eq]; exact frame.pending
  · have entered := (reportCause_safeEntered .addressConflict free).of_stays
      (r := (reportCause .addressConflict s).withLink t.link) rfl (.refl _)
    rw [eq]
    exact entered.withPicture t.picture
  · obtain ⟨drive, arm, water, console⟩ := reportCause_dutiesStay .addressConflict safe
    refine ⟨?_, fun u => ?_, ?_, ?_⟩
    · rw [eq]; exact drive
    · rw [eq, ← arm]; cases u <;> rfl
    · rw [eq]; exact water
    · rw [eq]; exact console
  · intro r entry
    rw [matched i first]
    have rule : (reportCause .addressConflict s).picture.table[i] = r := by rw [table]
    refine ⟨fun short => ?_, fun long => ?_⟩
    · rw [deliver_of_short (by rw [rule]; exact short), dropHead_of_cons (by exact held')]
      exact ⟨by rw [← table]; rfl, left⟩
    · rw [← rule] at long
      refine ⟨fun queue => ?_, fun slot => ?_, fun both => ?_⟩
      · rw [deliver_of_queue long (by rw [rule]; exact queue), dropHead_of_cons (by exact held'), rule]
        exact ⟨by rw [← table]; rfl, left⟩
      · rw [deliver_of_slot long (by rw [rule]; exact slot)]
        exact ⟨by rw [← table]; rfl, frame.link⟩
      · rw [deliver_of_slotAndQueue long (by rw [rule]; exact both), rule]
        exact ⟨by rw [← table]; rfl, frame.link⟩
  · rw [pub]; exact reportCause_haltNumber told rfl built
  · rw [pub]; exact reportCause_asksHalt told rfl

/-- Settles O23. -/
theorem labelsFindTheirSlots : Obligations.LabelsFindTheirSlots := by
  intro s p
  refine ⟨fun r l code => ?_, fun bytes k => ⟨byteAt_eq bytes k, fun _ _ => wordAt_of_some, fun _ _ _ => longAt_of_some,
      fun short => if_neg (by omega), fun short => if_neg (by omega)⟩,
    fun _ _ => slotLabel_eq_some_iff, fun _ => slotRequired_iff, fun l => ⟨?_, fun _ => mem_slotsOf⟩,
    fun _ => heardRecord_eq_some_iff, fun _ => heardRecord_eq_some_iff⟩
  · rw [ruleLabel, labelOfCode_eq, code]
    rfl
  · exact (List.pairwise_lt_finRange 32).filter _

end Sys2Proof.Machine
end

section
/-! PROOFS. An arm's transitions: the claim they leave and the frame they announce (spec/07, 7.3–7.5). -/

namespace Sys2Proof.Machine

section
variable {s t : State} {u w : ArmUnit} {a : Arm}

/-! ## The claim of an arm by its state (R145) -/

/-- The arm holds the claim of its state. -/
def ClaimsOwn (s : State) (u : ArmUnit) (a : Arm) : Prop := a.claim = some (armHolds s u a)

/-- The claim reads the state and the load factor alone (R145). -/
theorem armHolds_congr {b : Arm} (state : b.state = a.state) (load : b.load = a.load) : armHolds s u b = armHolds s u a := by
  unfold armHolds
  rw [state, load]

theorem ClaimsOwn.of_same {b : Arm} (h : ClaimsOwn s u a) (claim : b.claim = a.claim) (state : b.state = a.state)
    (load : b.load = a.load) : ClaimsOwn s u b := by
  unfold ClaimsOwn
  rw [claim, armHolds_congr state load]
  exact h

theorem armEnters_claimsOwn (s : State) (u : ArmUnit) (st : ArmState) (a : Arm) : ClaimsOwn s u (armEnters s u st a) := by
  rw [armEnters_eq, ← armHolds_eq]
  exact congrArg some (armHolds_congr rfl rfl).symm

/-- A step moves neither the claim, the state, the load factor nor the cause. -/
theorem stepBegins_fields (s : State) (u : ArmUnit) (st : Step) (a : Arm) : (stepBegins s u st a).claim = a.claim
    ∧ (stepBegins s u st a).state = a.state ∧ (stepBegins s u st a).load = a.load ∧ (stepBegins s u st a).cause = a.cause := by
  cases st with
  | brush on =>
    cases on
    · exact ⟨rfl, rfl, rfl, rfl⟩
    · unfold stepBegins
      dsimp only
      split <;> exact ⟨rfl, rfl, rfl, rfl⟩
  | valve | waitAngle | waitTime | waitDist | waitWater | waitBrush => exact ⟨rfl, rfl, rfl, rfl⟩

theorem stepsRun_claimsOwn (l : List Step) (h : ClaimsOwn s u a) : ClaimsOwn s u (stepsRun s u l a).1 := by
  induction l generalizing a with
  | nil => exact h.of_same rfl rfl rfl
  | cons st rest ih =>
    obtain ⟨claim, state, load, -⟩ := stepBegins_fields s u st a
    have begun := h.of_same claim state load
    unfold stepsRun
    dsimp only
    split
    · exact ih (begun.of_same rfl rfl rfl)
    · exact begun

theorem armStarts_claimsOwn (s : State) (u : ArmUnit) (st : ArmState) (l : ListName) (a : Arm) :
    ClaimsOwn s u (armStarts s u st l a).1 := stepsRun_claimsOwn _ (armEnters_claimsOwn ..)

theorem armRetracts_claimsOwn (s : State) (u : ArmUnit) (a : Arm) : ClaimsOwn s u (armRetracts s u a) := by
  unfold armRetracts
  dsimp only
  split
  · exact armEnters_claimsOwn ..
  · exact armStarts_claimsOwn ..

theorem armEnds_claimsOwn (l : ListName) (h : ClaimsOwn s u a) : ClaimsOwn s u (armEnds s u l a) := by
  unfold armEnds
  cases l with
  | none => exact h
  | deploy | resume | retract => exact armEnters_claimsOwn ..
  | yield =>
    dsimp only
    split
    · exact armRetracts_claimsOwn ..
    · exact armEnters_claimsOwn ..

theorem armTakes_claimsOwn (s : State) (u : ArmUnit) (l : ListName) (a : Arm) : ClaimsOwn s u (armTakes s u l a) := by
  have taken (st : ArmState) : ClaimsOwn s u
      (if (armStarts s u st l a).2 = true then armEnds s u l (armStarts s u st l a).1 else (armStarts s u st l a).1) := by
    split
    · exact armEnds_claimsOwn l (armStarts_claimsOwn ..)
    · exact armStarts_claimsOwn ..
  cases l <;> exact taken _

theorem settleBrush_of_claim (p : ArmParams) (now : Nat) (was : Bool) (a : Arm) (c : Option Claim) :
    settleBrush p now was { a with claim := c } = { settleBrush p now was a with claim := c } := by
  have runs : brushRuns { a with claim := c } = brushRuns a := rfl
  unfold settleBrush
  rw [runs]
  cases brushRuns a <;> cases was <;> rfl

/-- The claim held before a transition is not read by it. -/
theorem armEnters_of_claim (s : State) (u : ArmUnit) (st : ArmState) (a : Arm) (c : Option Claim) :
    armEnters s u st { a with claim := c } = armEnters s u st a := by
  have entered : enterState (armParams s u) s.micros (ms s) st { a with claim := c } =
      { enterState (armParams s u) s.micros (ms s) st a with claim := c } :=
    settleBrush_of_claim _ _ _ { a with
      state := st
      loadDue := if st = .sweeping then some (ms s + 500) else none
      engaged := if st = .stowed then false else a.engaged } c
  rw [armEnters_eq, armEnters_eq, entered]
  rfl

theorem armStarts_of_claim (s : State) (u : ArmUnit) (st : ArmState) (l : ListName) (a : Arm) (c : Option Claim) :
    armStarts s u st l { a with claim := c } = armStarts s u st l a := by
  unfold armStarts
  exact congrArg _ (armEnters_of_claim s u st { a with
    list := l, remaining := (listSteps (armParams s u) l).length, deadline := none, record := .none, brushOnRun := false } c)

theorem armTakes_retract_of_claim (s : State) (u : ArmUnit) (a : Arm) (c : Option Claim) :
    armTakes s u .retract { a with claim := c } = armTakes s u .retract a := by
  unfold armTakes
  dsimp only
  rw [armStarts_of_claim]

/-! ## The state and the cause that a transition leaves (R128–R132) -/

theorem armEnters_state (s : State) (u : ArmUnit) (st : ArmState) (a : Arm) :
    (armEnters s u st a).state = st ∧ (armEnters s u st a).cause = a.cause := by
  have only := settleBrush_only (armParams s u) s.micros (brushRuns a) { a with
    state := st
    loadDue := if st = .sweeping then some (ms s + 500) else none
    engaged := if st = .stowed then false else a.engaged }
  rw [armEnters_eq]
  exact ⟨only.state, only.cause⟩

theorem stepsRun_state (s : State) (u : ArmUnit) (l : List Step) (a : Arm) :
    (stepsRun s u l a).1.state = a.state ∧ (stepsRun s u l a).1.cause = a.cause := by
  induction l generalizing a with
  | nil => exact ⟨rfl, rfl⟩
  | cons st rest ih =>
    obtain ⟨-, state, -, cause⟩ := stepBegins_fields s u st a
    unfold stepsRun
    dsimp only
    split
    · obtain ⟨state', cause'⟩ := ih (stepCounted (stepBegins s u st a))
      exact ⟨state'.trans state, cause'.trans cause⟩
    · exact ⟨state, cause⟩

theorem armStarts_state (s : State) (u : ArmUnit) (st : ArmState) (l : ListName) (a : Arm) :
    (armStarts s u st l a).1.state = st ∧ (armStarts s u st l a).1.cause = a.cause := by
  unfold armStarts
  dsimp only
  obtain ⟨state, cause⟩ := stepsRun_state s u (listSteps (armParams s u) l) (armEnters s u st { a with
    list := l, remaining := (listSteps (armParams s u) l).length, deadline := none, record := .none, brushOnRun := false })
  rw [state, cause]
  exact armEnters_state ..

/-- Where a RETRACT list leads at once: RETRACTING, or STOWED when it is done (R132). -/
theorem armTakes_retract_state (s : State) (u : ArmUnit) (a : Arm) : ((armTakes s u .retract a).state = .retracting
    ∨ (armTakes s u .retract a).state = .stowed) ∧ (armTakes s u .retract a).cause = a.cause := by
  obtain ⟨started, kept⟩ := armStarts_state s u .retracting .retract a
  unfold armTakes
  dsimp only
  split
  · obtain ⟨state, cause⟩ := armEnters_state s u .stowed (armStarts s u .retracting .retract a).1
    exact ⟨.inr state, cause.trans kept⟩
  · exact ⟨.inl started, kept⟩

/-! ## The frame of a change of state (R55) -/

/-- An arm present on an OPERATING station, whose frame goes out. -/
def ArmPublishes (s : State) (u : ArmUnit) : Prop := s.loader.station = .operating ∧ armPresent s u = true

theorem ArmPublishes.of_frame (h : ArmPublishes s u) (frame : KeepsAllButArm w s t) : ArmPublishes t u :=
  ⟨frame.loader ▸ h.1, (frame.armPresent_eq u).trans h.2⟩

theorem askArm_announced (h : ArmPublishes s u) : Announced (askArm u s) (armTopic u) :=
  announced_requestCyclic h.1 (publishes_armTopic_of_present h.2) (recordBytes ..)

theorem restIn_announced (st : ArmState) (h : ArmPublishes s u) : Announced (restIn u st s) (armTopic u) :=
  askArm_announced (h.of_frame (changeArm_frame u st s))

theorem startList_announced (st : ArmState) (l : ListName) (h : ArmPublishes s u) :
    Announced (startList u st l s).1 (armTopic u) := by
  have frame : KeepsAllButArm u s (endList u (runSteps u (listSteps (armParams s u) l)
      (changeArm u st (s.withArm u (loadList (armParams s u) l (s.arm u)))))).1 :=
    ((KeepsAllButArm.withArm ..).trans (changeArm_frame ..)).trans ((runSteps_frame ..).trans (endList_frame ..))
  exact askArm_announced (h.of_frame frame)

theorem startRetract_announced (h : ArmPublishes s u) : Announced (startRetract u s) (armTopic u) := by
  unfold startRetract
  dsimp only
  split
  · exact restIn_announced _ (h.of_frame (startList_frame ..))
  · exact startList_announced _ _ h

theorem finishYield_announced (h : ArmPublishes s u) : Announced (finishYield u s) (armTopic u) := by
  unfold finishYield
  split
  · exact startRetract_announced h
  · exact restIn_announced _ h

theorem startYield_announced (h : ArmPublishes s u) : Announced (startYield u s) (armTopic u) := by
  unfold startYield
  dsimp only
  split
  · exact finishYield_announced (h.of_frame (startList_frame ..))
  · exact startList_announced _ _ h

theorem startDeploy_announced (h : ArmPublishes s u) : Announced (startDeploy u s) (armTopic u) := by
  unfold startDeploy
  dsimp only
  split
  · exact restIn_announced _ (h.of_frame (startList_frame ..))
  · exact startList_announced _ _ h

theorem startResume_announced (h : ArmPublishes s u) : Announced (startResume u s) (armTopic u) := by
  unfold startResume
  dsimp only
  split
  · exact restIn_announced _ (h.of_frame (startList_frame ..))
  · exact startList_announced _ _ h

theorem finishList_announced {l : ListName} (ends : l ≠ .none) (h : ArmPublishes s u) : Announced (finishList u l s) (armTopic u) := by
  cases l with
  | none => exact absurd rfl ends
  | yield => exact finishYield_announced h
  | deploy | resume | retract => exact restIn_announced _ h

theorem freeArm_announced (h : ArmPublishes s u) : Announced (freeArm u s) (armTopic u) :=
  startRetract_announced (h.of_frame (.withArm ..))

end

end Sys2Proof.Machine
end

section
/-! PROOFS. The Event Handler and CLEAR: a peer's HALT, the release of SAFE, LATCHES, arm items, QUERY and NOTICE (spec/01,
spec/10). -/

namespace Sys2Proof.Machine

section
variable {s t : State} {e : EventEntry} {rest : List EventEntry} {u : ArmUnit} {c : Cause}

/-! ## The head of the event queue (R23, R24) -/

/-- The station with the head of its event queue taken. -/
def entryTaken (s : State) (rest : List EventEntry) : State := s.withPicture { s.picture with events := rest }

theorem exec_eventHandlerTake (out : s.loader.station ≠ .configuring) (head : s.picture.events = e :: rest) :
    exec .eventHandlerTake s = .next (handEntry e (entryTaken s rest)) := by
  refine congrArg Host.Outcome.next ?_
  rw [head]
  exact if_pos (by simpa [sampling] using out)

theorem handEntry_of_halt (label : e.label = .haltIn) (topic : headerTopic e.header = topicNumber .halt) :
    handEntry e s = reportCause .peerHalt s := if_pos ⟨label, topic⟩

theorem handEntry_of_clear (label : e.label = .controlIn) (topic : headerTopic e.header = topicNumber .clear)
    (target : byteAt e.payload 0 = s.loader.address.toNat ∨ byteAt e.payload 0 = 15) :
    handEntry e s = takeClear (clearItems e.payload) s :=
  (if_neg (by simp [label])).trans (if_pos ⟨label, topic, target⟩)

theorem topicNumber_query_ne_clear : topicNumber .query ≠ topicNumber .clear := by decide

theorem handEntry_of_query (label : e.label = .controlIn) (topic : headerTopic e.header = topicNumber .query)
    (mine : byteAt e.payload 0 = s.loader.address.toNat) (one : byteAt e.payload 0 ≠ 15) :
    handEntry e s = requestEvent .report (reportRecord s (byteAt e.payload 1)) s :=
  (if_neg (by simp [label])).trans <| (if_neg fun h => topicNumber_query_ne_clear (topic.symm.trans h.2.1)).trans <|
    if_pos ⟨label, topic, mine, one⟩

theorem handEntry_of_notice (label : e.label = .noticeIn) (topic : headerTopic e.header = topicNumber .notice)
    (console : s.duties.console = true) : handEntry e s = lightLamp s :=
  (if_neg (by simp [label])).trans <| (if_neg (by simp [label])).trans <| (if_neg (by simp [label])).trans <|
    if_pos ⟨label, topic, console⟩

/-- An entry that none of the four owners takes is discarded (R24). -/
theorem handEntry_of_unowned (halt : ¬(e.label = .haltIn ∧ headerTopic e.header = topicNumber .halt))
    (clear : ¬(e.label = .controlIn ∧ headerTopic e.header = topicNumber .clear
      ∧ (byteAt e.payload 0 = s.loader.address.toNat ∨ byteAt e.payload 0 = 15)))
    (query : ¬(e.label = .controlIn ∧ headerTopic e.header = topicNumber .query
      ∧ byteAt e.payload 0 = s.loader.address.toNat ∧ byteAt e.payload 0 ≠ 15))
    (notice : ¬(e.label = .noticeIn ∧ headerTopic e.header = topicNumber .notice ∧ s.duties.console = true)) : handEntry e s = s :=
  (if_neg halt).trans <| (if_neg clear).trans <| (if_neg query).trans (if_neg notice)

/-- A CLEAR at the head of the queue is taken by Safe Control. -/
theorem exec_clear (head : headEntry s e rest .controlIn .clear)
    (target : byteAt e.payload 0 = s.loader.address.toNat ∨ byteAt e.payload 0 = 15) :
    exec .eventHandlerTake s = .next (takeClear (clearItems e.payload) (entryTaken s rest)) := by
  obtain ⟨out, first, label, topic⟩ := head
  rw [exec_eventHandlerTake out first, handEntry_of_clear (s := entryTaken s rest) label topic target]

theorem clearItems_of_byte {payload : List Byte} {n : Nat} (h : byteAt payload 1 = n) :
    clearItems payload = ⟨n.testBit 0, n.testBit 1, n.testBit 2, n.testBit 3⟩ := by rw [← h]; rfl

theorem exec_clearAtHead {items : Nat} (h : clearAtHead s rest items) : exec .eventHandlerTake s =
    .next (takeClear ⟨items.testBit 0, items.testBit 1, items.testBit 2, items.testBit 3⟩ (entryTaken s rest)) := by
  obtain ⟨e, head, named, target⟩ := h
  rw [exec_clear head target, clearItems_of_byte named]

/-! ## Release (R188, R189, R190) -/

theorem conditionGone_iff : (releasable c && conditionGone s c) = true ↔ CauseGone s c := by
  cases c <;> simp [releasable, conditionGone, CauseGone]

theorem causeStands_iff : causeStands s c = true ↔ hasCause s.safe.causes c = true ∧ ¬CauseGone s c := by
  rw [causeStands, ← conditionGone_iff, Bool.and_eq_true, Bool.not_eq_true', Bool.not_eq_true]

theorem causeStands_eq_false_iff : causeStands s c = false ↔ (hasCause s.safe.causes c = true → CauseGone s c) := by
  rw [← Bool.not_eq_true, causeStands_iff, not_and, Classical.not_not]

theorem mem_allCauses (c : Cause) : c ∈ allCauses := by cases c <;> decide

theorem speedAllows_iff : speedAllows s = true ↔ (s.duties.drive = true → s.drive.vm < 50) := by
  cases h : s.duties.drive <;> simp [speedAllows, h]

theorem releaseGranted_iff : releaseGranted s = true ↔
    (∀ c, hasCause s.safe.causes c = true → CauseGone s c) ∧ (s.duties.drive = true → s.drive.vm < 50) := by
  simp only [releaseGranted, Bool.and_eq_true, speedAllows_iff, Bool.not_eq_true', List.any_eq_false, Bool.not_eq_true,
    causeStands_eq_false_iff, mem_allCauses, forall_const]

/-- The causes stand in the order of their numbers (R190). -/
theorem find?_allCauses {q : Cause → Bool} (found : q c = true) (least : ∀ b, causeNumber b < causeNumber c → q b = false) :
    allCauses.find? q = some c := by
  obtain ⟨before, after, split, earlier⟩ : ∃ before after, allCauses = before ++ c :: after
      ∧ ∀ b ∈ before, causeNumber b < causeNumber c := by
    cases c
    · exact ⟨[], _, rfl, by decide⟩
    · exact ⟨[.haltButton], _, rfl, by decide⟩
    · exact ⟨[.haltButton, .peerHalt], _, rfl, by decide⟩
    · exact ⟨[.haltButton, .peerHalt, .linkMute], _, rfl, by decide⟩
    · exact ⟨[.haltButton, .peerHalt, .linkMute, .addressConflict], _, rfl, by decide⟩
  have none : before.find? q = none := List.find?_eq_none.2 fun b hb => by simp [least b (earlier b hb)]
  rw [split, List.find?_append, none, List.find?_cons_of_pos found]
  rfl

theorem refusalCause_of_standing (stands : causeStands s c = true)
    (first : ∀ b, causeNumber b < causeNumber c → causeStands s b = false) : refusalCause s = c := by
  unfold refusalCause
  rw [find?_allCauses stands first]

theorem refusalCause_of_speed (none : ∀ b, causeStands s b = false) (held : hasCause s.safe.causes c = true)
    (first : ∀ b, causeNumber b < causeNumber c → hasCause s.safe.causes b = false) : refusalCause s = c := by
  unfold refusalCause
  rw [List.find?_eq_none.2 fun b _ => by simp [none b], find?_allCauses held first]
  rfl

theorem takeRelease_of_granted (safe : isSafe s = true) (granted : releaseGranted s = true) : takeRelease s = safeRelease s := by
  rw [takeRelease, safe, granted]
  rfl

theorem takeRelease_of_refused (safe : isSafe s = true) (refused : releaseGranted s = false) :
    takeRelease s = requestNotice .releaseRefused (causeNumber (refusalCause s)) 0 s := by
  rw [takeRelease, safe, refused]
  rfl

theorem causes_of_free (free : isSafe s = false) : s.safe.causes = noCauses := by
  have none (c : Cause) := hasCause_of_free free c
  have h0 := none .haltButton
  have h1 := none .peerHalt
  have h2 := none .linkMute
  have h3 := none .addressConflict
  have h4 := none .configBad
  generalize s.safe.causes = causes at *
  cases causes
  simp only [hasCause] at h0 h1 h2 h3 h4
  simp only [noCauses, h0, h1, h2, h3, h4]

/-! ### The arms at a release -/

theorem releaseArm_armMoves (u : ArmUnit) (s : State) : ArmMoves u s (releaseArm u s) := by
  unfold releaseArm
  split
  · exact freeArm_armMoves u s
  · exact .refl u s

theorem releaseArm_of_held (h : armPresent s u = false ∨ (s.arm u).state ≠ .fault ∨ (s.arm u).cause ≠ .stationSafe) :
    releaseArm u s = s := by
  rcases h with h | h | h <;> simp [releaseArm, h]

theorem releaseArm_of_stationSafe (p : armPresent s u = true) (fault : (s.arm u).state = .fault)
    (cause : (s.arm u).cause = .stationSafe) : releaseArm u s = freeArm u s := by
  simp [releaseArm, p, fault, cause]

/-- The station that an arm is released on: its claims are formed on the empty cause set, nothing else of the arm has moved. -/
theorem safeRelease_arm (u : ArmUnit) (s : State) : ∃ q, q.arm u = (clearCauses s).arm u ∧ KeepsAllButDuties (clearCauses s) q
    ∧ q.safe = (clearCauses s).safe ∧ (safeRelease s).arm u = (releaseArm u q).arm u
    ∧ (Announced (releaseArm u q) (armTopic u) → Announced (safeRelease s) (armTopic u)) := by
  have checked := checkUrgency_frame (clearCauses s)
  have first := releaseArm_frame .a (checkUrgency (clearCauses s))
  have second := releaseArm_frame .b (releaseArm .a (checkUrgency (clearCauses s)))
  cases u with
  | a =>
    exact ⟨_, checked.arm .a, .ofPub checked, checked.safe, second.other .a (by decide),
      fun h => h.armMoves (by decide) (releaseArm_armMoves .b _)⟩
  | b =>
    exact ⟨_, (first.other .b (by decide)).trans (checked.arm .b), (KeepsAllButDuties.ofPub checked).trans (.ofArm first),
      first.safe.trans checked.safe, rfl, id⟩

theorem clearCauses_arm (u : ArmUnit) (s : State) : (clearCauses s).arm u = { s.arm u with
    claim := if armPresent s u = true then some (armOwnClaim (armParams s u) (s.arm u)) else (s.arm u).claim } := by
  have free : isSafe (s.withSafe { s.safe with causes := noCauses }) = false := rfl
  rw [clearCauses, setAllClaims_arm, formClaim_free free]
  cases u <;> rfl

theorem safeRelease_frame_duties (s : State) : (safeRelease s).drive = (clearCauses s).drive
    ∧ (safeRelease s).water = (clearCauses s).water ∧ (safeRelease s).console = (clearCauses s).console
    ∧ (safeRelease s).safe = (clearCauses s).safe := by
  have checked := checkUrgency_frame (clearCauses s)
  have frame := (releaseArm_frame .a (checkUrgency (clearCauses s)))
  have frame' := releaseArm_frame .b (releaseArm .a (checkUrgency (clearCauses s)))
  exact ⟨frame'.drive.trans (frame.drive.trans checked.drive), frame'.water.trans (frame.water.trans checked.water),
    frame'.console.trans (frame.console.trans checked.console), frame'.safe.trans (frame.safe.trans checked.safe)⟩

theorem safeRelease_sameEvents (s : State) : SameEvents s.pub (safeRelease s).pub := by
  have pub : (clearCauses s).pub = s.pub := setAllClaims_pub _
  have checked := checkUrgency_sameEvents (clearCauses s)
  rw [pub] at checked
  exact checked.trans ((releaseArm_armMoves .a _).sameEvents.trans (releaseArm_armMoves .b _).sameEvents)

/-- An arm in FAULT with cause STATION_SAFE at a release (R141, R189). -/
theorem safeRelease_arm_of_stationSafe (p : armPresent s u = true) (fault : (s.arm u).state = .fault)
    (cause : (s.arm u).cause = .stationSafe) :
    (safeRelease s).arm u = armTakes { s with safe := (clearCauses s).safe } u .retract { s.arm u with cause := .none }
      ∧ (s.loader.station = .operating → ArmAnnounced (safeRelease s) u) := by
  obtain ⟨q, arm, frame, safe, moved, announced⟩ := safeRelease_arm u s
  have base := clearCauses_frame s
  have around : SameAround { s with safe := (clearCauses s).safe } q :=
    ⟨frame.micros.trans base.micros, frame.params.trans base.params, frame.inputs.trans base.inputs,
      congrArg Picture.table (frame.picture.trans base.picture), congrArg Picture.slots (frame.picture.trans base.picture), safe⟩
  have present : armPresent q u = true := (frame.armPresent_eq u).trans ((base.armPresent_eq u).trans p)
  have state : (q.arm u).state = .fault := by rw [arm, clearCauses_arm]; exact fault
  have why : (q.arm u).cause = .stationSafe := by rw [arm, clearCauses_arm]; exact cause
  rw [releaseArm_of_stationSafe present state why] at moved announced
  refine ⟨?_, fun o => armAnnounced_iff.2 (announced (freeArm_announced ⟨?_, present⟩))⟩
  · rw [moved, freeArm_armTakes, around.armTakes, arm, clearCauses_arm]
    exact armTakes_retract_of_claim _ u { s.arm u with cause := .none } _
  · rw [frame.loader, base.loader, o]

theorem safeRelease_arm_of_held (h : armPresent s u = false ∨ (s.arm u).state ≠ .fault ∨ (s.arm u).cause ≠ .stationSafe) :
    (safeRelease s).arm u = (clearCauses s).arm u := by
  obtain ⟨q, arm, frame, -, moved, -⟩ := safeRelease_arm u s
  rw [moved, releaseArm_of_held, arm]
  rw [frame.armPresent_eq, (clearCauses_frame s).armPresent_eq, arm, clearCauses_arm]
  exact h

/-! ## LATCHES (R160, R192) -/

theorem takeLatches_of_stop (p : s.duties.water = true) (fault : s.water.state = .fault) :
    takeLatches s = changeWater .off (clearFlags s) := if_pos (by simp [p, fault])

theorem takeLatches_of_keep (h : s.duties.water = false ∨ s.water.state ≠ .fault) : takeLatches s = clearFlags s :=
  if_neg (by rcases h with h | h <;> simp [h])

theorem takeLatches_frame (s : State) : KeepsAllButDuties (clearFlags s) (takeLatches s) := by
  by_cases h : s.duties.water = true ∧ s.water.state = .fault
  · rw [takeLatches_of_stop h.1 h.2]
    exact changeWater_frame ..
  · rw [takeLatches_of_keep (by by_cases p : s.duties.water = true <;> simp_all)]
    exact .refl _

theorem clearFlags_sameEvents (s : State) : SameEvents { s.pub with droppedFlag := false } (clearFlags s).pub :=
  ⟨rfl, rfl, ⟨rfl, rfl, rfl⟩, fun _ _ => rfl⟩

theorem changeWater_sameEvents (st : WaterState) (s : State) : SameEvents s.pub (changeWater st s).pub :=
  (checkUrgency_sameEvents (setWaterClaim (s.withWater (enterWater s.micros st s.water)))).trans (requestCyclic_sameEvents ..)

/-- PACE after the claim of the moved water duty (R55, R70). -/
theorem changeWater_paceRises (st : WaterState) (s : State) : PaceRises s (changeWater st s) :=
  (paceRises_checkUrgency (c := setWaterClaim (s.withWater (enterWater s.micros st s.water))) (by rfl) ⟨rfl, rfl⟩).after_requestCyclic
    (by decide)

end

end Sys2Proof.Machine
end

section
/-! PROOFS. What the Event Handler's entries come to, as the statements have it (spec/01, 1.6; spec/10). -/

namespace Sys2Proof.Machine

section
variable {s t : State} {e : EventEntry} {rest : List EventEntry} {u : ArmUnit}

theorem entryTaken_around (s : State) (rest : List EventEntry) : SameAround s (entryTaken s rest) := ⟨rfl, rfl, rfl, rfl, rfl, rfl⟩

/-! ## Arm items (R193) -/

theorem KeepsAllButArm.eq (h : KeepsAllButArm u s t) : t = { s.withArm u (t.arm u) with pub := t.pub } := by
  cases s; cases t
  cases u with
  | a =>
    obtain ⟨rfl, rfl, rfl, rfl, rfl, rfl, rfl, rfl, rfl, other, rfl, rfl, rfl, rfl⟩ := h
    obtain rfl := other .b (by decide)
    rfl
  | b =>
    obtain ⟨rfl, rfl, rfl, rfl, rfl, rfl, rfl, rfl, rfl, other, rfl, rfl, rfl, rfl⟩ := h
    obtain rfl := other .a (by decide)
    rfl

theorem takeArmItem_of_fault (o : s.loader.station = .operating) (p : armPresent s u = true) (fault : (s.arm u).state = .fault)
    (free : isSafe s = false) : takeArmItem u s = freeArm u s := by
  simp [takeArmItem, operating, o, p, fault, free]

theorem takeArmItem_of_barred (h : s.loader.station ≠ .operating ∨ armPresent s u = false ∨ (s.arm u).state ≠ .fault
    ∨ isSafe s = true) : takeArmItem u s = s := by
  rcases h with h | h | h | h <;> simp [takeArmItem, operating, h]

theorem takeClear_of_armItem (u : ArmUnit) (s : State) :
    takeClear ⟨false, false, decide (u = .a), decide (u = .b)⟩ s = takeArmItem u s := by
  cases u <;> rfl

theorem testBit_iff {n i : Nat} : n.testBit i = true ↔ n / 2 ^ i % 2 = 1 := by
  rw [Nat.testBit_eq_decide_div_mod_eq, decide_eq_true_eq]

theorem clearItems_of_none {payload : List Byte} (none : byteAt payload 1 % 16 = 0) :
    clearItems payload = ⟨false, false, false, false⟩ := by
  have off (i : Nat) (h : byteAt payload 1 / 2 ^ i % 2 ≠ 1) : (byteAt payload 1).testBit i = false :=
    Bool.eq_false_iff.2 (mt testBit_iff.1 h)
  rw [clearItems_of_byte rfl, off 0 (by omega), off 1 (by omega), off 2 (by omega), off 3 (by omega)]

theorem clearPictureFlags_fields (p : Picture) : (clearPictureFlags p).events = p.events ∧ (clearPictureFlags p).table = p.table
    ∧ (clearPictureFlags p).store = p.store ∧ (clearPictureFlags p).shortPayload = false
    ∧ (clearPictureFlags p).eventOverrun = false
    ∧ ∀ n : Fin 32, (clearPictureFlags p).slots[n] = { p.slots[n] with gap := false } := by
  refine ⟨?_, ?_, ?_, ?_, ?_, fun n => ?_⟩ <;> simp only [clearPictureFlags]
  exact Vector.getElem_ofFn n.isLt

/-- A CLEAR's entry with one items byte put back at the head of the queue. -/
def withItems (e : EventEntry) (items : Byte) (s : State) : State :=
  s.withPicture { s.picture with events := { e with payload := [e.payload.getD 0 0, items] } :: s.picture.events }

theorem exec_withItems (head : headEntry t e rest .controlIn .clear)
    (target : byteAt e.payload 0 = t.loader.address.toNat ∨ byteAt e.payload 0 = 15) (loader : s.loader = t.loader) (items : Byte) :
    exec .eventHandlerTake (withItems e items s) = .next
      (takeClear ⟨items.toNat.testBit 0, items.toNat.testBit 1, items.toNat.testBit 2, items.toNat.testBit 3⟩ s) := by
  obtain ⟨out, -, label, topic⟩ := head
  rw [← loader] at out target
  have back : entryTaken (withItems e items s) s.picture.events = s := rfl
  have first : headEntry (withItems e items s) { e with payload := [e.payload.getD 0 0, items] } s.picture.events .controlIn .clear :=
    ⟨out, rfl, label, topic⟩
  rw [exec_clear first target, back]
  rfl

theorem takeLatches_loader (s : State) : (takeLatches s).loader = s.loader := (takeLatches_frame s).loader

theorem whenPresent_loader {f : State → State} (h : ∀ s, (f s).loader = s.loader) (present : Bool) (s : State) :
    (whenPresent present f s).loader = s.loader := whenPresent_keeps State.loader h present s

/-! ## REPORT, bit by bit (R61, R62, R63, R208) -/

theorem gapSeen_iff {p : Picture} : gapSeen p = true ↔ ∃ n : Fin 32, (p.slots[n]).gap = true := by
  simp [gapSeen, slotNumbers, List.any_eq_true]

theorem truncationSeen_iff {p : Picture} : truncationSeen p = true ↔
    ∃ (n : Fin 32) (r : SlotRecord), (p.slots[n]).record = some r ∧ 12 < headerLength r.header := by
  simp only [truncationSeen, slotNumbers, List.any_eq_true, List.mem_finRange, true_and]
  refine exists_congr fun n => ?_
  cases p.slots[n].record with
  | none => simp
  | some r =>
    refine decide_eq_true_iff.trans ?_
    simp [receivedLength]

theorem causeSetCode_eq (c : CauseSet) : causeSetCode c = (if c.haltButton then 1 else 0) + (if c.peerHalt then 2 else 0)
    + (if c.linkMute then 4 else 0) + (if c.addressConflict then 8 else 0) + (if c.configBad then 16 else 0) := by
  have sum : causeSetCode c = bit c.haltButton 0 + (bit c.peerHalt 1 + (bit c.linkMute 2 + (bit c.addressConflict 3
      + (bit c.configBad 4 + 0)))) := rfl
  rw [sum]
  simp only [Nat.add_zero, ← Nat.add_assoc]
  rfl

theorem linkStateCode_eq_idxOf (x : LinkState) : linkStateCode x = [LinkState.hunt, .on, .mute].idxOf x := by cases x <;> rfl

theorem channelStateCode_eq_idxOf (x : ChannelState) :
    channelStateCode x = [ChannelState.stopped, .tracking, .oneMissing, .lost].idxOf x := by cases x <;> rfl

theorem channelStates_eq (s : State) : channelStates s =
    let channel (i : Fin 6) := [ChannelState.stopped, .tracking, .oneMissing, .lost].idxOf (s.inputs.pulse[i]).state
    channel 0 * 16384 + channel 1 * 4096 + channel 2 * 1024 + channel 3 * 256 + channel 4 * 64 + channel 5 * 16 := by
  have numbers : channelNumbers = [0, 1, 2, 3, 4, 5] := by decide
  simp only [channelStates, numbers, channelStateCode_eq_idxOf, List.map_cons, List.map_nil, List.sum_cons, List.sum_nil,
    Nat.add_assoc, Nat.add_zero]
  rfl

theorem identRecord_eq (s : State) : identRecord s =
    [0, 0x3D, 0x09, 0x9C, 1, byteOf s.loader.address.toNat,
      byteOf ((if s.duties.drive then 1 else 0) + (if s.duties.armA then 2 else 0)
        + (if s.duties.armB then 4 else 0) + (if s.duties.water then 8 else 0) + (if s.duties.console then 16 else 0))]
    ++ wordBytes (s.loader.imageCrc.getD 0) := rfl

theorem flagSummary_eq (s : State) : flagSummary s =
    (if s.link.crcFlag then 32768 else 0) + (if s.link.framingFlag then 16384 else 0)
      + (if s.link.shortFlag then 8192 else 0) + (if s.link.muteFlag then 4096 else 0)
      + (if s.picture.shortPayload then 2048 else 0) + (if gapSeen s.picture then 1024 else 0)
      + (if truncationSeen s.picture then 512 else 0) + (if s.pub.late then 256 else 0) + (if s.pub.droppedFlag then 128 else 0)
      + (if s.inputs.sensorLost then 64 else 0) + (if s.water.state = .fault then 32 else 0) := by
  have fault : bit (s.water.state == .fault) 5 = if s.water.state = .fault then 32 else 0 := by
    simp [bit]
  rw [flagSummary, fault]
  rfl

end

/-- Settles O24: PEER_HALT is told of the station with the entry taken. -/
theorem peerHaltPutsTheStationInSafe : Obligations.PeerHaltPutsTheStationInSafe := by
  intro s e rest ⟨out, first, label, topic⟩ free
  have free' : isSafe (entryTaken s rest) = false := free
  have new := hasCause_of_free free' .peerHalt
  have frame := reportCause_frame .peerHalt (entryTaken s rest)
  refine ⟨_, (exec_eventHandlerTake out first).trans (by rw [handEntry_of_halt label topic]), frame.picture, ?_, frame.loader,
    frame.link, frame.inputs, frame.params, frame.duties, frame.held, frame.micros, frame.pending,
    (reportCause_safeEntered .peerHalt free').of_source (t := entryTaken s rest) rfl rfl (.refl _), ?_⟩
  · rw [reportCause_safe_of_new new]
    have none : (entryTaken s rest).safe.causes = noCauses := causes_of_free free'
    rw [none]
    rfl
  · rw [reportCause_of_new new]
    exact (causeTaken_cyclicOnly .peerHalt (entryTaken s rest)).events

/-- Settles O25. -/
theorem clearReleasesSafe : Obligations.ClearReleasesSafe := by
  intro s rest head safe gone slow
  have granted : releaseGranted (entryTaken s rest) = true := releaseGranted_iff.2 ⟨fun c held => ?gone, slow⟩
  case gone =>
    have k := gone c held
    cases c <;> exact k
  have frame := safeRelease_frame (entryTaken s rest)
  have base := clearCauses_frame (entryTaken s rest)
  obtain ⟨drive, water, console, causes⟩ := safeRelease_frame_duties (entryTaken s rest)
  have free : isSafe ((entryTaken s rest).withSafe { (entryTaken s rest).safe with causes := noCauses }) = false := rfl
  have arm (u : ArmUnit) : (entryTaken s rest).arm u = s.arm u := State.withPicture_arm ..
  have present (u : ArmUnit) : armPresent (entryTaken s rest) u = armPresent s u := armPresent_withPicture ..
  have params (u : ArmUnit) : armParams (entryTaken s rest) u = armParams s u := armParams_withPicture ..
  have released : isSafe (safeRelease (entryTaken s rest)) = false := (isSafe_of_safe causes).trans (clearCauses_isSafe _)
  refine ⟨safeRelease (entryTaken s rest), ?_, released, frame.hold, frame.picture, frame.loader, frame.link, frame.inputs,
    frame.params, frame.duties, frame.held, frame.micros, frame.pending, ?_, ?_, ?_, fun u absent => ?_, fun u p => ?_,
    safeRelease_sameEvents (entryTaken s rest)⟩
  · rw [exec_clearAtHead head]
    exact congrArg Host.Outcome.next (takeRelease_of_granted (s := entryTaken s rest) safe granted)
  · rw [drive, clearCauses, setAllClaims_drive, formClaim_free free]; rfl
  · rw [water, clearCauses, setAllClaims_water, formClaim_free free]; rfl
  · rw [console, clearCauses, setAllClaims_console, formClaim_free free]; rfl
  · rw [safeRelease_arm_of_held (.inl ((present u).trans absent)), clearCauses_arm, present, absent, arm]
    rfl
  · have p' := (present u).trans p
    have kept (h : (s.arm u).state ≠ .fault ∨ (s.arm u).cause ≠ .stationSafe) : (safeRelease (entryTaken s rest)).arm u =
        { s.arm u with claim := some (armOwnClaim (armParams s u) (s.arm u)) } := by
      rw [← arm] at h
      rw [safeRelease_arm_of_held (.inr h), clearCauses_arm, present, p, arm, params]
      rfl
    by_cases h : (s.arm u).state = .fault ∧ (s.arm u).cause = .stationSafe
    · obtain ⟨fault, cause⟩ := h
      obtain ⟨takes, announced⟩ := safeRelease_arm_of_stationSafe p' ((congrArg Arm.state (arm u)).trans fault)
        ((congrArg Arm.cause (arm u)).trans cause)
      have around : SameAround { s with safe := (safeRelease (entryTaken s rest)).safe }
          { entryTaken s rest with safe := (clearCauses (entryTaken s rest)).safe } := ⟨rfl, rfl, rfl, rfl, rfl, causes.symm⟩
      rw [around.armTakes, arm] at takes
      obtain ⟨state, none⟩ := armTakes_retract_state { s with safe := (safeRelease (entryTaken s rest)).safe } u
        { s.arm u with cause := .none }
      have own := armTakes_claimsOwn { s with safe := (safeRelease (entryTaken s rest)).safe } u .retract { s.arm u with cause := .none }
      rw [← takes] at state none own
      refine ⟨?_, fun other => ?_, fun _ _ => ⟨state, none, takes, announced⟩⟩
      · have freed : isSafe { s with safe := (safeRelease (entryTaken s rest)).safe } = false := released
        rw [own, armHolds_eq, formClaim_free freed]
        cases u <;> rfl
      · exact absurd fault (other.resolve_right (not_not_intro cause))
    · have other : (s.arm u).state ≠ .fault ∨ (s.arm u).cause ≠ .stationSafe := Classical.not_and_iff_not_or_not.1 h
      refine ⟨?_, kept, fun fault cause => absurd ⟨fault, cause⟩ h⟩
      rw [kept other]
      rfl

/-- Settles O26. -/
theorem refusedReleaseNamesACause : Obligations.RefusedReleaseNamesACause := by
  intro s rest c head o held why place order notice
  have safe : isSafe (entryTaken s rest) = true := (isSafe_iff _).2 ⟨c, held⟩
  have gone (b : Cause) : CauseGone (entryTaken s rest) b ↔ CauseGone s b := by cases b <;> exact .rfl
  have refused : releaseGranted (entryTaken s rest) = false ∧ refusalCause (entryTaken s rest) = c := by
    rw [← Bool.not_eq_true, releaseGranted_iff]
    rcases why with ⟨stands, first⟩ | ⟨all, drive, fast, first⟩
    · refine ⟨fun k => stands ((gone c).1 (k.1 c held)), refusalCause_of_standing (causeStands_iff.2 ⟨held, mt (gone c).1 stands⟩) ?_⟩
      exact fun b lower => causeStands_eq_false_iff.2 fun h => (gone b).2 (first b lower h)
    · refine ⟨fun k => Nat.not_lt.2 fast (k.2 drive), refusalCause_of_speed (fun b => ?_) held first⟩
      exact causeStands_eq_false_iff.2 fun h => (gone b).2 (all b h)
  refine ⟨_, insertNew_placed order, ?_⟩
  have told : takeRelease (entryTaken s rest) = requestNotice .releaseRefused (causeNumber c) 0 (entryTaken s rest) := by
    rw [takeRelease_of_refused safe refused.1, refused.2]
  rw [exec_clearAtHead head]
  refine congrArg Host.Outcome.next (told.trans ((requestEvent_free _ _ (by exact o) (by exact place)).trans ?_))
  rfl

/-- Settles O27. -/
theorem latchesClearEveryFlag : Obligations.LatchesClearEveryFlag := by
  intro s rest head
  have frame := takeLatches_frame (entryTaken s rest)
  have picture : (takeLatches (entryTaken s rest)).picture = clearPictureFlags (entryTaken s rest).picture := frame.picture
  have stop (p : s.duties.water = true) (fault : s.water.state = .fault) :
      takeLatches (entryTaken s rest) = changeWater .off (clearFlags (entryTaken s rest)) := takeLatches_of_stop p fault
  have keep (h : s.duties.water = false ∨ s.water.state ≠ .fault) : takeLatches (entryTaken s rest) = clearFlags (entryTaken s rest) :=
    takeLatches_of_keep h
  have cases : (s.duties.water = true ∧ s.water.state = .fault) ∨ (s.duties.water = false ∨ s.water.state ≠ .fault) := by
    rw [← Bool.not_eq_true, ← Classical.not_and_iff_not_or_not]; exact Classical.em _
  have others : (takeLatches (entryTaken s rest)).drive = s.drive ∧ (takeLatches (entryTaken s rest)).armA = s.armA
      ∧ (takeLatches (entryTaken s rest)).armB = s.armB ∧ (takeLatches (entryTaken s rest)).console = s.console
      ∧ (takeLatches (entryTaken s rest)).safe = s.safe := by
    rcases cases with ⟨p, fault⟩ | h
    · rw [stop p fault]
      have checked := checkUrgency_frame (stopWater (clearFlags (entryTaken s rest)))
      have asked := requestCyclic_frame .water (checkUrgency (stopWater (clearFlags (entryTaken s rest))))
      exact ⟨asked.drive.trans checked.drive, asked.armA.trans checked.armA, asked.armB.trans checked.armB,
        asked.console.trans checked.console, asked.safe.trans checked.safe⟩
    · rw [keep h]
      exact ⟨rfl, rfl, rfl, rfl, rfl⟩
  have events : SameEvents { s.pub with droppedFlag := false } (takeLatches (entryTaken s rest)).pub := by
    have cleared := clearFlags_sameEvents (entryTaken s rest)
    rcases cases with ⟨p, fault⟩ | h
    · rw [stop p fault]
      exact cleared.trans (changeWater_sameEvents ..)
    · rw [keep h]
      exact cleared
  have kept (h : s.duties.water = false ∨ s.water.state ≠ .fault) : (takeLatches (entryTaken s rest)).water = s.water
      ∧ (takeLatches (entryTaken s rest)).pub = { s.pub with late := false, droppedFlag := false } := by
    rw [keep h]; exact ⟨rfl, rfl⟩
  have stopped (p : s.duties.water = true) (fault : s.water.state = .fault) :
      (takeLatches (entryTaken s rest)).water.state = .off ∧ (takeLatches (entryTaken s rest)).water.q = 0
      ∧ (takeLatches (entryTaken s rest)).water.pump = 0 ∧ (takeLatches (entryTaken s rest)).water.dry = s.water.dry
      ∧ (takeLatches (entryTaken s rest)).water.claim = some
        (if isSafe s = true then ⟨0, .stop, .stationSafe⟩ else waterOwnClaim s.params.water s.water)
      ∧ (s.loader.station = .operating → Announced (takeLatches (entryTaken s rest)) .water)
      ∧ PaceRises s (takeLatches (entryTaken s rest)) := by
    have announced := changeWater_announced (s := clearFlags (entryTaken s rest)) .off
    have rises := changeWater_paceRises .off (clearFlags (entryTaken s rest))
    rw [stop p fault, changeWater_water]
    exact ⟨rfl, rfl, rfl, rfl, rfl, fun o => announced o p, rises⟩
  have flags : (clearFlags (entryTaken s rest)).link = clearLinkFlags s.link := clearFlags_link _
  have run := exec_clearAtHead head
  have only : takeClear ⟨Nat.testBit 2 0, Nat.testBit 2 1, Nat.testBit 2 2, Nat.testBit 2 3⟩ (entryTaken s rest)
      = takeLatches (entryTaken s rest) := rfl
  rw [only] at run
  generalize takeLatches (entryTaken s rest) = t at *
  obtain ⟨drive, armA, armB, console, safe⟩ := others
  obtain ⟨events', table, store, short, overrun, slots⟩ := clearPictureFlags_fields (entryTaken s rest).picture
  obtain ⟨dropped, -, flag⟩ := events.dropped
  refine ⟨t, run, frame.link.trans flags, ?_, ?_, ?_, ?_, ?_, fun n => ?_, frame.inputs, flag, dropped, events.deferred, safe,
    frame.loader, frame.params, frame.duties, drive, armA, armB, console, frame.micros, frame.pending, kept, events, stopped⟩
  · rw [picture, events']; rfl
  · rw [picture, table]; rfl
  · rw [picture, store]; rfl
  · rw [picture, short]
  · rw [picture, overrun]
  · rw [picture, slots]; rfl

/-- Settles O28. -/
theorem clearTakesItsItemsInOrder : Obligations.ClearTakesItsItemsInOrder := by
  intro s e rest head target taken named one
  have all := exec_clear head target
  refine ⟨fun u item => ?_, fun none => ?_, ?_⟩
  · have only : exec .eventHandlerTake s = .next (takeArmItem u (entryTaken s rest)) := by
      rw [all, clearItems_of_byte item, ← takeClear_of_armItem]
      cases u <;> rfl
    have arm : (entryTaken s rest).arm u = s.arm u := State.withPicture_arm ..
    have present : armPresent (entryTaken s rest) u = armPresent s u := armPresent_withPicture ..
    rw [only]
    refine ⟨fun o p fault free => ?_, fun barred => ?_⟩
    · have frame := freeArm_frame u (entryTaken s rest)
      rw [takeArmItem_of_fault (s := entryTaken s rest) o (present.trans p) ((congrArg Arm.state arm).trans fault) free]
      refine ⟨_, rfl, ?_, armAnnounced_iff.2 (freeArm_announced ⟨o, present.trans p⟩), (freeArm_armMoves u (entryTaken s rest)).sameEvents⟩
      rw [← (entryTaken_around s rest).armTakes, ← arm, ← freeArm_armTakes]
      exact frame.eq
    · rw [takeArmItem_of_barred (s := entryTaken s rest) (by rw [arm, present]; exact barred)]
      rfl
  · rw [all, clearItems_of_none none]
    rfl
  · have released := whenPresent_loader (fun s => (takeRelease_frame s).loader) ((byteAt e.payload 1).testBit 0) (entryTaken s rest)
    have latched := (whenPresent_loader takeLatches_loader ((byteAt e.payload 1).testBit 1) _).trans released
    have freed := (whenPresent_loader (fun s => (takeArmItem_frame .a s).loader) ((byteAt e.payload 1).testBit 2) _).trans latched
    have bit (i : Nat) : named (2 ^ i) ↔ (byteAt e.payload 1).testBit i = true := testBit_iff.symm
    have item (f : State → State) (i : Nat) {n : Nat} (power : 2 ^ i = n) (items : Byte) (x : State)
        (yes : exec .eventHandlerTake (one items x) = .next (f x)) :
        if named n then exec .eventHandlerTake (one items x) = .next (whenPresent ((byteAt e.payload 1).testBit i) f x)
        else whenPresent ((byteAt e.payload 1).testBit i) f x = x := by
      rw [← power]
      cases h : (byteAt e.payload 1).testBit i with
      | true => rw [if_pos ((bit i).2 h)]; exact yes
      | false => rw [if_neg (mt (bit i).1 (by rw [h]; decide))]; rfl
    refine ⟨_, _, _, item takeRelease 0 rfl 1 taken (exec_withItems (s := taken) head target rfl 1),
      item takeLatches 1 rfl 2 _ (exec_withItems head target released 2),
      item (takeArmItem .a) 2 rfl 4 _ (exec_withItems head target latched 4), ?_⟩
    have eighth : named 8 ↔ (byteAt e.payload 1).testBit 3 = true := bit 3
    rw [all]
    have last := exec_withItems head target freed 8
    cases h : (byteAt e.payload 1).testBit 3 with
    | true =>
      rw [if_pos (eighth.2 h)]
      refine Eq.trans ?_ last.symm
      have items : clearItems e.payload = ⟨(byteAt e.payload 1).testBit 0, (byteAt e.payload 1).testBit 1,
        (byteAt e.payload 1).testBit 2, true⟩ := by rw [← h]; rfl
      rw [items]
      rfl
    | false =>
      rw [if_neg (mt eighth.1 (by rw [h]; decide))]
      have items : clearItems e.payload = ⟨(byteAt e.payload 1).testBit 0, (byteAt e.payload 1).testBit 1,
        (byteAt e.payload 1).testBit 2, false⟩ := by rw [← h]; rfl
      rw [items]
      rfl

/-- Settles O29. -/
theorem queryIsAnsweredByAReport : Obligations.QueryIsAnsweredByAReport := by
  intro s e rest ⟨out, first, label, topic⟩ mine own o place order
  have one : byteAt e.payload 0 ≠ 15 := fun h => own (BitVec.eq_of_toNat_eq (mine.symm.trans h))
  refine ⟨reportRecord s (byteAt e.payload 1), _, gapSeen s.picture, truncationSeen s.picture, insertNew_placed order, ?_, gapSeen_iff,
    truncationSeen_iff, fun other => ?_, fun status => ?_⟩
  · rw [exec_eventHandlerTake out first, handEntry_of_query (s := entryTaken s rest) label topic mine one,
      requestEvent_free _ _ (by exact o) (by exact place)]
    rfl
  · rw [reportRecord, if_neg other, identRecord_eq]
  · rw [reportRecord, if_pos status, statusRecord, causeSetCode_eq, linkStateCode_eq_idxOf, flagSummary_eq, channelStates_eq,
      spelled_twoBytes, spelled_twoBytes]
    rfl

/-- Settles O30. -/
theorem noticeLightsTheLampOthersAreDropped : Obligations.NoticeLightsTheLampOthersAreDropped := by
  intro s e rest out first topic target dropped
  have taken := exec_eventHandlerTake out first
  have unowned (halt : ¬(e.label = .haltIn ∧ topic = topicNumber .halt))
      (clear : ¬(e.label = .controlIn ∧ topic = topicNumber .clear ∧ (target = s.loader.address.toNat ∨ target = 15)))
      (query : ¬(e.label = .controlIn ∧ topic = topicNumber .query ∧ target = s.loader.address.toNat ∧ target ≠ 15))
      (notice : ¬(e.label = .noticeIn ∧ topic = topicNumber .notice ∧ s.duties.console = true)) : dropped :=
    taken.trans (congrArg Host.Outcome.next (handEntry_of_unowned (s := entryTaken s rest) halt clear query notice))
  refine ⟨fun label own console => ?_, fun label h => ?_, fun label h => ?_, fun label noClear noQuery => ?_,
    fun label isClear other broadcast => ?_, fun label isQuery h => ?_, fun noHalt noControl noNotice => ?_⟩
  · rw [taken, handEntry_of_notice (s := entryTaken s rest) label own console]
    rfl
  · refine unowned (by simp [label]) (by simp [label]) (by simp [label]) fun k => ?_
    rcases h with h | h
    · exact h k.2.1
    · rw [h] at k; cases k.2.2
  · exact unowned (fun k => h k.2) (by simp [label]) (by simp [label]) (by simp [label])
  · exact unowned (by simp [label]) (fun k => noClear k.2.1) (fun k => noQuery k.2.1) (by simp [label])
  · refine unowned (by simp [label]) (fun k => k.2.2.elim other broadcast) (fun k => other k.2.2.1) (by simp [label])
  · refine unowned (by simp [label]) (fun k => topicNumber_query_ne_clear (isQuery.symm.trans k.2.1)) (fun k => ?_) (by simp [label])
    exact h.elim (fun n => n k.2.2.1) (fun b => k.2.2.2 b)
  · exact unowned (fun k => noHalt k.1) (fun k => noControl k.1) (fun k => noControl k.1) (fun k => noNotice k.1)

end Sys2Proof.Machine
end

section
/-! PROOFS. Publication at a period's expiry and at the entry to OPERATING, and the pins (spec/03, 3.3 and 3.5; spec/10, 10.6). -/

namespace Sys2Proof.Machine

section
variable {s t : State}

/-! ## A period timer's expiry (R54) -/

/-- Settles O33: the frame built at a period's expiry is the record of `recordBytes`, at the place `builtCyclic_of_recordBytes`
gives it. -/
theorem periodTimerPublishesItsTopic : Obligations.PeriodTimerPublishesItsTopic := by
  intro s topic due station published timer reached _
  have reached' : due ≤ ms s := reached
  have frame := (publishCyclic_frame topic s).trans (startPeriod_frame topic due _)
  refine ⟨_, builtCyclic_of_recordBytes due (recordBytes s topic), ?_⟩
  simp only [exec, execPeriodTimerExpiry, timer, operating_iff.2 station, published, reached', decide_true, Bool.and_true,
    if_true]
  exact congrArg Host.Outcome.next frame.eq

/-! ## The deferred events enqueued (R59) -/

/-- A new entry stands behind those of its own header, and the entries of another header are as they were. -/
theorem insertNew_filter_header {e : TxEntry} {l : List TxEntry} (order : inOrder l) (h : Word16) :
    (insertNew e l).filter (fun x => x.header == h)
      = l.filter (fun x => x.header == h) ++ if e.header = h then [e] else [] := by
  have alone : [e].filter (fun x => x.header == h) = if e.header = h then [e] else [] := by
    by_cases same : e.header = h <;> simp [same]
  obtain ⟨before, after, split, placed, -, above⟩ := insertNew_placed (e := e) order
  rw [placed, split, List.filter_append, List.filter_cons, List.filter_append]
  by_cases same : e.header = h
  · have none_after : after.filter (fun x => x.header == h) = [] :=
      List.filter_eq_nil_iff.2 fun x hx is => by
        have lt := above x hx
        rw [eq_of_beq is, same] at lt
        exact Nat.lt_irrefl _ lt
    simp [same, none_after]
  · simp [same]

/-- The deferred events of one header stand behind those already there in the order asked. -/
theorem enqueueAll_filter_header (now : Nat) (l old : List TxEntry) (order : inOrder old) (h : Word16) :
    (l.foldl (enqueueDeferred now) old).filter (fun x => x.header == h)
      = old.filter (fun x => x.header == h)
        ++ (l.filter (fun x => x.header == h)).map fun e => { e with enqueued := some now } := by
  induction l generalizing old with
  | nil => simp
  | cons x rest ih =>
    rw [List.foldl_cons, ih (enqueueDeferred now old x) (insertNew_inOrder order), enqueueDeferred, insertNew_filter_header order,
      List.append_assoc, List.filter_cons]
    by_cases same : x.header = h <;> simp [same]

/-! ## The first frames (R59, R203) -/

/-- What the first frames of some cyclic topics make of a station's scheduler: each topic published has its frame in the list,
its timer running and its number moved on; no other topic is touched. -/
structure FirstFrames (s : State) (topics : List CyclicTopic) (t : State) : Prop where
  frame : KeepsAllButPub s t
  events : CyclicOnly s.pub t.pub
  late : t.pub.late = s.pub.late
  length : t.pub.list.length = s.pub.list.length + (topics.filter (publishes s.duties)).length
  built : ∀ v ∈ topics, publishes s.duties v = true → cyclicEntry s v ∈ t.pub.list
    ∧ t.pub.timers[cyclicIndex v] = some (ms s + periodOf s v)
    ∧ t.pub.nextSeq[topicIndex (cyclicTopic v)] = s.pub.nextSeq[topicIndex (cyclicTopic v)] + 1
  others : ∀ v, v ∉ topics ∨ publishes s.duties v = false → CyclicKept v s.pub t.pub
  fresh : ∀ v ∉ topics, ¬PendingCyclic (topicHeader (cyclicTopic v) s.loader.address) t.pub.list
  urgency : t.pub.lastUrgency
    = if .pace ∈ topics ∧ publishes s.duties .pace = true then combinedUrgency s else s.pub.lastUrgency

theorem FirstFrames.none (fresh : ∀ v, ¬PendingCyclic (topicHeader (cyclicTopic v) s.loader.address) s.pub.list) :
    FirstFrames s [] s where
  frame := .refl s
  events := .refl _
  late := rfl
  length := rfl
  built _ h := nomatch h
  others v _ := .refl v _
  fresh v _ := fresh v
  urgency := (if_neg fun h => nomatch h.1).symm

theorem combinedUrgency_of_frame (h : KeepsAllButPub s t) : combinedUrgency t = combinedUrgency s := by rw [h.eq]; rfl

theorem cyclicEntry_of_frame (h : KeepsAllButPub s t) {v : CyclicTopic}
    (number : t.pub.nextSeq[topicIndex (cyclicTopic v)] = s.pub.nextSeq[topicIndex (cyclicTopic v)]) :
    cyclicEntry t v = cyclicEntry s v := by
  have record : cyclicRecord t v = cyclicRecord s v := by rw [h.eq]; exact cyclicRecord_withPub ..
  rw [cyclicEntry, cyclicEntry, nextNumber, nextNumber, number, record, h.loader]

/-- The frame of one more topic. -/
theorem FirstFrames.next {topics : List CyclicTopic} {v : CyclicTopic} (h : FirstFrames s topics t)
    (o : s.loader.station = .operating) (new : v ∉ topics) : FirstFrames s (topics ++ [v]) (firstFrame t v) := by
  have station : t.loader.station = .operating := by rw [h.frame.loader]; exact o
  have asked : firstFrame t v = requestCyclic v t := firstFrame_eq_requestCyclic station v
  have frame : KeepsAllButPub t (firstFrame t v) := by rw [asked]; exact requestCyclic_frame ..
  have only : CyclicOnly t.pub (firstFrame t v).pub := by rw [asked]; exact requestCyclic_cyclicOnly ..
  obtain ⟨kept_number, kept_timer⟩ := h.others v (.inl new)
  have entry : cyclicEntry t v = cyclicEntry s v := cyclicEntry_of_frame h.frame kept_number
  cases p : publishes s.duties v with
  | false =>
    have silent : firstFrame t v = t := by rw [asked, requestCyclic_unpublished]; rw [h.frame.duties]; exact p
    rw [silent]
    refine ⟨h.frame, h.events, h.late, ?_, fun w hw pw => ?_, fun w hw => h.others w ?_, fun w hw => h.fresh w ?_, ?_⟩
    · rw [h.length]; simp [p]
    · rcases List.mem_append.1 hw with hw | hw
      · exact h.built w hw pw
      · rw [List.mem_singleton.1 hw, p] at pw; cases pw
    · exact hw.imp_left fun n hw => n (List.mem_append_left _ hw)
    · exact fun m => hw (List.mem_append_left _ m)
    · rw [h.urgency]
      by_cases pace : v = .pace
      · rw [pace] at p; simp [p]
      · simp [Ne.symm pace]
  | true =>
    have published : publishes t.duties v = true := by rw [h.frame.duties]; exact p
    have run : firstFrame t v = startPeriod v (ms t) (publishCyclic v t) := asked.trans (requestCyclic_of_published station published)
    have fresh : ¬PendingCyclic (topicHeader (cyclicTopic v) t.loader.address) t.pub.list := by
      rw [h.frame.loader]; exact h.fresh v new
    obtain ⟨list, late⟩ := publishCyclic_list_of_not_pending fresh
    have list' : (firstFrame t v).pub.list = insertNew (cyclicEntry s v) t.pub.list := by rw [run, ← entry]; exact list
    have kept (w : CyclicTopic) (ne : w ≠ v) : CyclicKept w t.pub (firstFrame t v).pub := by
      rw [asked]; exact requestCyclic_cyclicKept (Ne.symm ne)
    refine ⟨h.frame.trans frame, h.events.trans only, ?_, ?_, fun w hw pw => ?_, fun w hw => ?_, fun w hw => ?_, ?_⟩
    · rw [run]; exact late.trans h.late
    · rw [list', insertNew_length, h.length]; simp [p]; omega
    · by_cases same : w = v
      · subst same
        refine ⟨list' ▸ mem_insertNew.2 (.inl rfl), ?_, ?_⟩
        · rw [run]
          refine (Vector.getElem_set_self ..).trans ?_
          have params : (publishCyclic w t).params = s.params := h.frame.params
          rw [ms, ms, periodOf, periodOf, h.frame.micros, params]
        · rw [run]
          exact (Vector.getElem_set_self ..).trans (congrArg (· + 1) kept_number)
      · have old : w ∈ topics := (List.mem_append.1 hw).resolve_right fun k => same (List.mem_singleton.1 k)
        obtain ⟨listed, timer, number⟩ := h.built w old pw
        obtain ⟨same_number, same_timer⟩ := kept w same
        exact ⟨list' ▸ mem_insertNew.2 (.inr listed), same_timer.trans timer, same_number.trans number⟩
    · have ne : w ≠ v := by
        rintro rfl
        rcases hw with hw | hw
        · exact hw (List.mem_append_right _ List.mem_cons_self)
        · rw [p] at hw; cases hw
      exact (h.others w (hw.imp_left fun n m => n (List.mem_append_left _ m))).trans (kept w ne)
    · rintro ⟨x, hx, kind, header⟩
      rcases mem_insertNew.1 (list' ▸ hx) with rfl | hx
      · have same : v = w := cyclicTopic_of_header header
        exact hw (same ▸ List.mem_append_right _ List.mem_cons_self)
      · exact h.fresh w (fun m => hw (List.mem_append_left _ m)) ⟨x, hx, kind, header⟩
    · by_cases pace : v = .pace
      · subst pace
        rw [run, if_pos ⟨List.mem_append_right _ List.mem_cons_self, p⟩]
        exact combinedUrgency_of_frame h.frame
      · rw [asked, requestCyclic_lastUrgency pace, h.urgency]
        simp [Ne.symm pace]

theorem FirstFrames.foldl {done todo : List CyclicTopic} (h : FirstFrames s done t) (o : s.loader.station = .operating)
    (nodup : (done ++ todo).Nodup) : FirstFrames s (done ++ todo) (todo.foldl firstFrame t) := by
  induction todo generalizing done t with
  | nil => rw [List.append_nil]; exact h
  | cons v rest ih =>
    obtain ⟨-, -, apart⟩ := List.nodup_append.1 nodup
    have new : v ∉ done := fun m => apart v m v List.mem_cons_self rfl
    rw [List.append_cons] at nodup ⊢
    exact ih (h.next o new) nodup

theorem cyclicTopics_nodup : cyclicTopics.Nodup := by decide

theorem mem_cyclicTopics (v : CyclicTopic) : v ∈ cyclicTopics := by cases v <;> decide

/-- The entry to OPERATING: the first frames of every cyclic topic published, beside the events that were deferred (R203). -/
theorem enterOperating_firstFrames (empty : s.pub.list = []) (deferred : ∀ e ∈ s.pub.deferred, e.kind = .event) :
    FirstFrames (openList s) cyclicTopics (enterOperating s) := by
  obtain ⟨-, events, -⟩ := enqueueAll_spec (ms s) s.pub.deferred deferred s.pub.list (by rw [empty]; exact .nil)
    (by rw [empty]; exact fun _ h => nomatch h)
  have fresh (v : CyclicTopic) :
      ¬PendingCyclic (topicHeader (cyclicTopic v) (openList s).loader.address) (openList s).pub.list := by
    rintro ⟨x, hx, kind, -⟩
    have event : x.kind = .event := events x hx
    rw [event] at kind
    cases kind
  rw [enterOperating_eq]
  exact (FirstFrames.none fresh).foldl rfl cyclicTopics_nodup

/-- Settles O8: the list is the deferred events, enqueued in the order asked, with the first frames among them. -/
theorem joinTimerOpensPublication : Obligations.JoinTimerOpensPublication := by
  intro s due station timer reached empty deferred
  have reached' : due ≤ ms s := reached
  have first := enterOperating_firstFrames empty deferred
  obtain ⟨order, events, length⟩ := enqueueAll_spec (ms s) s.pub.deferred deferred s.pub.list (by rw [empty]; exact .nil)
    (by rw [empty]; exact fun _ h => nomatch h)
  obtain ⟨dropped, lastDropped, flag⟩ := first.events.events.dropped
  refine ⟨(enterOperating s).pub, ?run, ?deferred, ?order, ?length, fun h => ?events, fun v p => ?built, fun v p => ?unbuilt, ?urgency,
    first.late, flag, dropped⟩
  case run =>
    have runs : exec .joinTimerExpiry s = .next (enterOperating s) := by
      simp [exec, execJoinTimerExpiry, station, timer, Machine.due, reached']
    rw [runs, first.frame.eq]
    rfl
  case deferred => exact first.events.events.deferred
  case order => exact first.events.order order
  case length =>
    refine first.length.trans (congrArg (· + _) ?_)
    refine length.trans ?_
    rw [empty]; rfl
  case events =>
    have pending := first.events.events.pending
    have all : (openList s).pub.list.filter isEvent = (openList s).pub.list :=
      List.filter_eq_self.2 fun x hx => beq_iff_eq.2 (events x hx)
    calc (enterOperating s).pub.list.filter (fun e => e.kind == .event && e.header == h)
        = ((enterOperating s).pub.list.filter isEvent).filter (fun e => e.header == h) := by
          rw [List.filter_filter]
          exact List.filter_congr fun x _ => Bool.and_comm ..
      _ = (openList s).pub.list.filter (fun e => e.header == h) := congrArg _ (pending.trans all)
      _ = _ := by
        refine (enqueueAll_filter_header (ms s) s.pub.deferred s.pub.list (by rw [empty]; exact .nil) h).trans ?_
        rw [empty]
        rfl
  case built =>
    obtain ⟨listed, timer, number⟩ := first.built v (mem_cyclicTopics v) p
    refine ⟨⟨cyclicRecord (openList s) v, ?_, listed⟩, timer, number⟩
    have bytes := recordBytes (openList s) v
    cases v <;> exact bytes
  case unbuilt =>
    obtain ⟨-, timer⟩ := first.others v (.inr p)
    exact timer
  case urgency =>
    refine first.urgency.trans ?_
    simp only [mem_cyclicTopics, true_and]
    rfl

/-! ## Line roles (R181, R198) -/

theorem noRepeat_iff {α : Type} [DecidableEq α] (l : List α) : noRepeat l = true ↔ l.Nodup := by
  induction l with
  | nil => simp [noRepeat]
  | cons x rest ih => simp [noRepeat, ih]

theorem names_iff {n : Nat} {present : Bool} {field : Option (Fin n)} {line : Fin n} :
    names present field line = true ↔ present = true ∧ field = some line := by
  simp [names]

theorem mem_namedLines {n : Nat} {present : Bool} {l : List (Option (Fin n))} {line : Fin n} :
    line ∈ namedLines present l ↔ present = true ∧ some line ∈ l := by
  unfold namedLines
  split <;> simp_all

theorem names_eq_false {n : Nat} {present : Bool} {field : Option (Fin n)} {line : Fin n}
    (h : line ∉ namedLines present [field]) : names present field line = false :=
  Bool.not_eq_true _ ▸ fun named => h (mem_namedLines.2 ⟨(names_iff.1 named).1, by simp [(names_iff.1 named).2]⟩)

/-- A duty's four line fields as a list. -/
def fourLines {n : Nat} (field : Fin 4 → Option (Fin n)) : List (Option (Fin n)) := (List.finRange 4).map field

/-- The field that names a line, if any. -/
def fieldOf {n : Nat} (present : Bool) (field : Fin 4 → Option (Fin n)) (line : Fin n) : Option (Fin 4) :=
  (List.finRange 4).find? fun i => names present (field i) line

theorem fieldOf_eq_none {n : Nat} {present : Bool} {field : Fin 4 → Option (Fin n)} {line : Fin n}
    (h : line ∉ namedLines present (fourLines field)) : fieldOf present field line = none :=
  List.find?_eq_none.2 fun i hi named => by
    obtain ⟨carried, named⟩ := names_iff.1 named
    exact h (mem_namedLines.2 ⟨carried, List.mem_map.2 ⟨i, hi, named⟩⟩)

/-- Any two entries of a list whose entries are pairwise related by a symmetric relation are. -/
theorem related_of_pairwise {α : Type} {r : α → α → Prop} {l : List α} (h : l.Pairwise r) (symm : ∀ {a b}, r a b → r b a) {a b : α}
    (ha : a ∈ l) (hb : b ∈ l) (ne : a ≠ b) : r a b :=
  List.Pairwise.forall_of_forall_of_flip (R := fun a b => a ≠ b → r a b) (fun _ _ ne => absurd rfl ne)
    (h.imp fun {a b} h (_ : a ≠ b) => h) (h.imp fun {a b} h (_ : b ≠ a) => symm h) ha hb ne

/-- Of fields that name no line twice, the one that names a line is the one found. -/
theorem fieldOf_eq_some {n : Nat} {present : Bool} {field : Fin 4 → Option (Fin n)} {line : Fin n}
    (nodup : (namedLines present (fourLines field)).Nodup) (carried : present = true) {i : Fin 4} (h : field i = some line) :
    fieldOf present field line = some i := by
  have apart : (List.finRange 4).Pairwise fun a b => ∀ x, field a = some x → ∀ y, field b = some y → x ≠ y := by
    rw [namedLines, if_pos carried, fourLines, List.filterMap_map] at nodup
    exact List.pairwise_filterMap.1 nodup
  have differ {a b : Fin 4} (ne : a ≠ b) := related_of_pairwise apart (fun h x hx y hy => Ne.symm (h y hy x hx))
    (List.mem_finRange a) (List.mem_finRange b) ne
  cases found : fieldOf present field line with
  | none => exact absurd (names_iff.2 ⟨carried, h⟩) (List.find?_eq_none.1 found i (List.mem_finRange i))
  | some j =>
    have named : names present (field j) line = true := List.find?_some (p := fun i => names present (field i) line) found
    refine congrArg some (Classical.byContradiction fun ne => ?_)
    exact differ ne line (names_iff.1 named).2 line h rfl

theorem toList_eq_fourLines (lines : Vector (Option (Fin 16)) 4) : lines.toList = fourLines (lines[·]) :=
  List.ext_getElem (by simp [fourLines]) fun i _ _ => by simp [fourLines]

theorem sprays_eq_fourLines (sprays : Vector SprayValve 4) :
    sprays.toList.map SprayValve.line = fourLines (fun i => sprays[i].line) :=
  List.ext_getElem (by simp [fourLines]) fun i _ _ => by simp [fourLines]

/-- The valve lines of each duty, with no line given two roles: each duty's lines differ among themselves and from those of the
others. -/
theorem valveRoles_eq (d : DutySet) (p : Params) : valveRoles d p =
    namedLines d.drive [p.drive.brakeLine] ++ namedLines d.water (fourLines fun i => p.water.sprays[i].line)
      ++ namedLines d.armA (fourLines (p.armA.lines[·])) ++ namedLines d.armB (fourLines (p.armB.lines[·]))
      ++ namedLines d.console [p.console.lampLine] := by
  rw [valveRoles, sprays_eq_fourLines, toList_eq_fourLines, toList_eq_fourLines]

/-- The level of a valve line by the role that names it, read off the fields. -/
theorem dutyValve_eq (s : State) (v : Fin 16) : dutyValve s v =
    if names s.duties.drive s.params.drive.brakeLine v then s.drive.brakeOn
    else
      match fieldOf s.duties.armA (s.params.armA.lines[·]) v, fieldOf s.duties.armB (s.params.armB.lines[·]) v,
        fieldOf s.duties.water (fun i => s.params.water.sprays[i].line) v with
      | some i, _, _ => armLineLevel s .a v i
      | none, some i, _ => armLineLevel s .b v i
      | none, none, some i => s.water.valves[i]
      | none, none, none =>
        if names s.duties.console s.params.console.lampLine v then lampLit s.console
        else s.safe.hold.valves.getLsbD v := rfl

/-- A valve line with no role has its hold-set level (R181). -/
theorem dutyValve_of_no_role {v : Fin 16} (h : v ∉ valveRoles s.duties s.params) :
    dutyValve s v = s.safe.hold.valves.getLsbD v := by
  simp only [valveRoles_eq, List.mem_append, not_or] at h
  obtain ⟨⟨⟨⟨drive, water⟩, armA⟩, armB⟩, console⟩ := h
  rw [dutyValve_eq, fieldOf_eq_none water, fieldOf_eq_none armA, fieldOf_eq_none armB, names_eq_false drive,
    names_eq_false console]
  rfl

theorem dutyPwm_of_no_role {w : Fin 8} (h : w ∉ pwmRoles s.duties s.params) : dutyPwm s w = s.safe.hold.pwm[w] := by
  simp only [pwmRoles, List.mem_append, not_or] at h
  obtain ⟨⟨⟨coils, armA⟩, armB⟩, water⟩ := h
  have forward : names s.duties.drive s.params.drive.fwdLine w = false :=
    Bool.not_eq_true _ ▸ fun named => coils (mem_namedLines.2 ⟨(names_iff.1 named).1, by simp [(names_iff.1 named).2]⟩)
  have reverse : names s.duties.drive s.params.drive.revLine w = false :=
    Bool.not_eq_true _ ▸ fun named => coils (mem_namedLines.2 ⟨(names_iff.1 named).1, by simp [(names_iff.1 named).2]⟩)
  simp [dutyPwm, isCoil, forward, reverse, names_eq_false armA, names_eq_false armB, names_eq_false water]

/-- With no line given two roles, a valve line carries what the one duty that names it sets (R142, R166, R178, R181). -/
theorem dutyValve_of_role {v : Fin 16} (h : noRepeat (valveRoles s.duties s.params) = true) :
    (s.duties.drive = true → s.params.drive.brakeLine = some v → dutyValve s v = s.drive.brakeOn)
      ∧ (∀ u (i : Fin 4), armPresent s u = true → (armParams s u).lines[i] = some v → dutyValve s v = armLineLevel s u v i)
      ∧ (∀ i : Fin 4, s.duties.water = true → s.params.water.sprays[i].line = some v → dutyValve s v = s.water.valves[i])
      ∧ (s.duties.console = true → s.params.console.lampLine = some v → dutyValve s v = lampLit s.console) := by
  rw [noRepeat_iff, valveRoles_eq] at h
  simp only [List.nodup_append, List.mem_append] at h
  obtain ⟨⟨⟨⟨-, waterOnce, waterApart⟩, armAOnce, armAApart⟩, armBOnce, armBApart⟩, -, consoleApart⟩ := h
  have listed {present : Bool} {field : Fin 4 → Option (Fin 16)} {i : Fin 4} (carried : present = true)
      (named : field i = some v) : v ∈ namedLines present (fourLines field) :=
    mem_namedLines.2 ⟨carried, List.mem_map.2 ⟨i, List.mem_finRange i, named⟩⟩
  refine ⟨fun carried named => ?_, fun u i carried named => ?_, fun i carried named => ?_, fun carried named => ?_⟩
  · exact if_pos (names_iff.2 ⟨carried, named⟩)
  · cases u with
    | a =>
      have mem := listed (field := (s.params.armA.lines[·])) carried named
      rw [dutyValve_eq, names_eq_false fun m => armAApart v (.inl m) v mem rfl, fieldOf_eq_some armAOnce carried named]
      rfl
    | b =>
      have mem := listed (field := (s.params.armB.lines[·])) carried named
      rw [dutyValve_eq, names_eq_false fun m => armBApart v (.inl (.inl m)) v mem rfl,
        fieldOf_eq_none fun m => armBApart v (.inr m) v mem rfl, fieldOf_eq_some armBOnce carried named]
      rfl
  · have mem := listed (field := fun i => s.params.water.sprays[i].line) carried named
    rw [dutyValve_eq, names_eq_false fun m => waterApart v m v mem rfl, fieldOf_eq_none fun m => armAApart v (.inr mem) v m rfl,
      fieldOf_eq_none fun m => armBApart v (.inl (.inr mem)) v m rfl, fieldOf_eq_some waterOnce carried named]
    rfl
  · have mem : v ∈ namedLines s.duties.console [s.params.console.lampLine] :=
      mem_namedLines.2 ⟨carried, by simp [named]⟩
    have lamp : names s.duties.console s.params.console.lampLine v = true := names_iff.2 ⟨carried, named⟩
    rw [dutyValve_eq, names_eq_false fun m => consoleApart v (.inl (.inl (.inl m))) v mem rfl,
      fieldOf_eq_none fun m => consoleApart v (.inl (.inr m)) v mem rfl, fieldOf_eq_none fun m => consoleApart v (.inr m) v mem rfl,
      fieldOf_eq_none fun m => consoleApart v (.inl (.inl (.inr m))) v mem rfl, lamp]
    rfl

/-- With no line given two roles, a PWM line carries what the one duty that names it sets (R101, R142, R166, R181). -/
theorem dutyPwm_of_role {w : Fin 8} (h : noRepeat (pwmRoles s.duties s.params) = true) :
    (s.duties.drive = true → s.params.drive.fwdLine = some w → dutyPwm s w = s.drive.fwdDuty)
      ∧ (s.duties.drive = true → s.params.drive.revLine = some w → dutyPwm s w = s.drive.revDuty)
      ∧ (∀ u, armPresent s u = true → (armParams s u).brushLine = some w → dutyPwm s w = brushLineDuty s u w)
      ∧ (s.duties.water = true → s.params.water.pumpLine = some w → dutyPwm s w = s.water.pump) := by
  rw [noRepeat_iff, pwmRoles] at h
  simp only [List.nodup_append, List.mem_append] at h
  obtain ⟨⟨⟨coilsOnce, -, armAApart⟩, -, armBApart⟩, -, waterApart⟩ := h
  have coil {l : List (Fin 8)} (mem : w ∈ l)
      (apart : ∀ x ∈ namedLines s.duties.drive [s.params.drive.fwdLine, s.params.drive.revLine], ∀ y ∈ l, x ≠ y) :
      isCoil s w = false := by
    refine Bool.not_eq_true _ ▸ fun is => ?_
    have named : w ∈ namedLines s.duties.drive [s.params.drive.fwdLine, s.params.drive.revLine] := by
      rcases Bool.or_eq_true_iff.1 is with is | is
      · exact mem_namedLines.2 ⟨(names_iff.1 is).1, by simp [(names_iff.1 is).2]⟩
      · exact mem_namedLines.2 ⟨(names_iff.1 is).1, by simp [(names_iff.1 is).2]⟩
    exact apart w named w mem rfl
  have single {present : Bool} {field : Option (Fin 8)} (carried : present = true) (named : field = some w) :
      w ∈ namedLines present [field] := mem_namedLines.2 ⟨carried, by simp [named]⟩
  refine ⟨fun carried named => ?_, fun carried named => ?_, fun u carried named => ?_, fun carried named => ?_⟩
  · have forward : names s.duties.drive s.params.drive.fwdLine w = true := names_iff.2 ⟨carried, named⟩
    simp [dutyPwm, isCoil, coilLine, forward]
  · have reverse : names s.duties.drive s.params.drive.revLine w = true := names_iff.2 ⟨carried, named⟩
    have forward : names s.duties.drive s.params.drive.fwdLine w = false := by
      refine Bool.not_eq_true _ ▸ fun is => ?_
      rw [(names_iff.1 is).2, named, namedLines, if_pos carried] at coilsOnce
      simp at coilsOnce
    simp [dutyPwm, isCoil, coilLine, forward, reverse]
  · cases u with
    | a =>
      have own : names s.duties.armA s.params.armA.brushLine w = true := names_iff.2 ⟨carried, named⟩
      simp [dutyPwm, coil (single carried named) armAApart, own]
    | b =>
      have mem := single carried named
      have own : names s.duties.armB s.params.armB.brushLine w = true := names_iff.2 ⟨carried, named⟩
      simp [dutyPwm, coil mem fun x m => armBApart x (.inl m), names_eq_false fun m => armBApart w (.inr m) w mem rfl, own]
  · have mem := single carried named
    have own : names s.duties.water s.params.water.pumpLine w = true := names_iff.2 ⟨carried, named⟩
    simp [dutyPwm, coil mem fun x m => waterApart x (.inl (.inl m)), names_eq_false fun m => waterApart w (.inl (.inr m)) w mem rfl,
      names_eq_false fun m => waterApart w (.inr m) w mem rfl, own]

/-- Settles O31: by the station's state, SAFE or not, and then by the line's role. -/
theorem outputLinesFollowSafeControl : Obligations.OutputLinesFollowSafeControl := by
  intro s v w
  refine ⟨fun station => ?off, fun station => ?joining, fun station safe => ?safe, fun station free => ?free⟩
  case off =>
    rcases station with station | station
    · exact ⟨by rw [valvePin, station], by rw [pwmPin, station]⟩
    · exact ⟨by rw [valvePin, station], by rw [pwmPin, station]⟩
  case joining => exact ⟨by rw [valvePin, station], by rw [pwmPin, station]⟩
  case safe =>
    have pwm : pwmPin s w = if isCoil s w && s.drive.state == .halting then coilLine s w else s.safe.hold.pwm[w] := by
      rw [pwmPin, station]
      exact if_pos safe
    refine ⟨by rw [valvePin, station]; exact if_pos safe, fun moving => ?still, fun halting carried forward => ?forward,
      fun halting carried reverse other => ?reverse, fun unnamed => ?unnamed⟩
    case still =>
      rw [pwm]
      simp [moving]
    case forward =>
      have named : names s.duties.drive s.params.drive.fwdLine w = true := names_iff.2 ⟨carried, forward⟩
      rw [pwm]
      simp [isCoil, coilLine, named, halting]
    case reverse =>
      have named : names s.duties.drive s.params.drive.revLine w = true := names_iff.2 ⟨carried, reverse⟩
      have not_forward : names s.duties.drive s.params.drive.fwdLine w = false := by simp [names, other]
      rw [pwm]
      simp [isCoil, coilLine, named, not_forward, halting]
    case unnamed =>
      have no_coil : isCoil s w = false := by
        rcases unnamed with absent | ⟨forward, reverse⟩
        · simp [isCoil, names, absent]
        · simp [isCoil, names, forward, reverse]
      rw [pwm]
      simp [no_coil]
  case free =>
    have unsafe_off : ¬isSafe s = true := Bool.not_eq_true _ ▸ free
    have valve : valvePin s v = dutyValve s v := by
      rw [valvePin, station]
      exact if_neg unsafe_off
    have pwm : pwmPin s w = dutyPwm s w := by
      rw [pwmPin, station]
      exact if_neg unsafe_off
    rw [valve, pwm]
    exact ⟨dutyValve_of_no_role, dutyPwm_of_no_role, dutyValve_of_role, dutyPwm_of_role⟩

end

end Sys2Proof.Machine
end

section
/-! PROOFS. The channels and inputs of spec/06, and the console's own timers (spec/09, 9.3 and 9.4). -/

namespace Sys2Proof.Machine

section
variable {s t : State}

theorem dutiesRun_iff : dutiesRun s = true ↔ s.loader.station = .joining ∨ s.loader.station = .operating := by
  simp [dutiesRun]

/-! ## Edges (R108–R111, R115) -/

theorem edgeAccepted_iff {k : PulseConst} {now : Nat} {c : PulseChannel} : edgeAccepted k now c = true
    ↔ c.lastEdge = none ∨ ∃ e, c.lastEdge = some e ∧ k.minSpacing ≤ interval now e := by
  cases h : c.lastEdge <;> simp [edgeAccepted, h]

theorem exec_pulseEdge {ch : Fin 6} (run : dutiesRun s = true) (used : s.inputs.pulse[ch].fn ≠ .unused) :
    exec (.pulseEdge ch) s = .next (if edgeAccepted (pulseConst s.params s.inputs.pulse[ch].fn) s.micros s.inputs.pulse[ch] = true
      then
        (if s.inputs.pulse[ch].fn = .wheel then (setChannel ch (acceptEdge (pulseConst s.params s.inputs.pulse[ch].fn) s.micros
            s.inputs.pulse[ch]) s).withInputs (addDistance (pulseConst s.params s.inputs.pulse[ch].fn) (setChannel ch
              (acceptEdge (pulseConst s.params s.inputs.pulse[ch].fn) s.micros s.inputs.pulse[ch]) s).inputs)
          else setChannel ch (acceptEdge (pulseConst s.params s.inputs.pulse[ch].fn) s.micros s.inputs.pulse[ch]) s)
      else s) := by
  have assigned : (s.inputs.pulse[ch].fn != .unused) = true := bne_iff_ne.2 used
  simp only [exec, execPulseEdge, run, assigned, Bool.true_and]

theorem trackFrom_of_edge {k : PulseConst} {now e : Nat} {c : PulseChannel} (edge : c.lastEdge = some e) : trackFrom k now c =
    { c with
      state := .tracking
      period := some (interval now e)
      value := min 65535 (k.k / interval now e)
      lastEdge := some now
      recovery := 0 } := by
  rw [trackFrom, edge]
  rfl

theorem recoveryCount_of_edge {k : PulseConst} {now e : Nat} {c : PulseChannel} (edge : c.lastEdge = some e) :
    recoveryCount k now c = if c.recovery ≠ 0 ∧ interval now e ≤ k.windowSteps * 10000 then c.recovery + 1 else 1 := by
  rw [recoveryCount, edge]
  rfl

/-- Settles O39: an accepted edge is `acceptEdge`, by the channel's state. -/
theorem pulseEdgeMovesTheChannel : Obligations.PulseEdgeMovesTheChannel := by
  intro s ch station used c k
  rw [exec_pulseEdge (dutiesRun_iff.2 station) used]
  refine ⟨fun e edge near => ?near, fun accepted => ⟨acceptEdge k s.micros c, ?moves, fun stopped => ?stopped,
    fun e edge tracked => ?tracked, fun e edge lost => ?lost, fun unset lost => ?first⟩⟩
  case near =>
    refine congrArg Host.Outcome.next (if_neg fun taken => ?_)
    rcases edgeAccepted_iff.1 taken with unset | ⟨e', edge', far⟩
    · cases edge.symm.trans unset
    · obtain rfl := Option.some.inj (edge.symm.trans edge')
      exact Nat.not_lt.2 far near
  case moves =>
    refine congrArg Host.Outcome.next ((if_pos (edgeAccepted_iff.2 accepted)).trans ?_)
    by_cases wheel : c.fn = .wheel
    · rw [if_pos wheel, if_pos wheel]; rfl
    · rw [if_neg wheel, if_neg wheel]; rfl
  case stopped => rw [acceptEdge, stopped]
  case tracked => rcases tracked with tracked | tracked <;> rw [acceptEdge, tracked] <;> exact trackFrom_of_edge edge
  case lost =>
    intro count
    have counted : recoveryCount k s.micros c = count := recoveryCount_of_edge edge
    rw [acceptEdge, lost]
    dsimp only
    rw [counted]
    exact ⟨fun few => if_neg (Nat.not_le.2 few), fun many => (if_pos many).trans (trackFrom_of_edge edge)⟩
  case first =>
    have counted : recoveryCount k s.micros c = 1 := by rw [recoveryCount, unset]
    rw [acceptEdge, lost]
    dsimp only
    rw [counted]
    rfl

/-! ## Deadlines (R112–R115, R139, R140) -/

theorem pulseFnCode_eq_idxOf (f : PulseFn) :
    pulseFnCode f = [PulseFn.unused, .wheel, .engine, .brushA, .brushB, .flow].idxOf f := by cases f <;> rfl

/-- A channel that has gone LOST, with the flag and the notice, before its reader is told (R115). -/
def noticeLost (ch : Fin 6) (s : State) : State :=
  let silent := setChannel ch (silence .lost s.inputs.pulse[ch]) s
  requestNotice .sensorLost ch.val (pulseFnCode s.inputs.pulse[ch].fn)
    (silent.withInputs { silent.inputs with sensorLost := true })

theorem noticeLost_inputs (ch : Fin 6) (s : State) : (noticeLost ch s).inputs =
    { s.inputs with pulse := s.inputs.pulse.set ch (silence .lost s.inputs.pulse[ch]), sensorLost := true } :=
  (requestNotice_frame ..).inputs

theorem noticeLost_eq (ch : Fin 6) (s : State) :
    noticeLost ch s = { s with inputs := (noticeLost ch s).inputs, pub := (noticeLost ch s).pub } := by
  rw [noticeLost_inputs]
  exact (requestNotice_frame ..).eq

theorem noticeLost_asks (ch : Fin 6) (s : State) : AskedEvent s .notice
    (spelled [5, ch.val, [PulseFn.unused, .wheel, .engine, .brushA, .brushB, .flow].idxOf s.inputs.pulse[ch].fn])
    (noticeLost ch s).pub := by
  rw [← pulseFnCode_eq_idxOf]
  exact askedEvent_requestEvent (s.withInputs { s.inputs with
    pulse := s.inputs.pulse.set ch (silence .lost s.inputs.pulse[ch]), sensorLost := true }) .notice _

theorem loseChannel_eq (ch : Fin 6) (s : State) : loseChannel ch s = match brushReader s.inputs.pulse[ch].fn with
    | some u => faultEvent u .brushSensor (noticeLost ch s)
    | none => noticeLost ch s := rfl

theorem brushReader_eq_none {f : PulseFn} (a : f ≠ .brushA) (b : f ≠ .brushB) : brushReader f = none := by
  cases f with
  | brushA => exact absurd rfl a
  | brushB => exact absurd rfl b
  | unused | wheel | engine | flow => rfl

theorem brushReader_brushFn (u : ArmUnit) : brushReader (brushFn u) = some u := by cases u <;> rfl

theorem loseChannel_of_brush {ch : Fin 6} {u : ArmUnit} (h : s.inputs.pulse[ch].fn = brushFn u) :
    loseChannel ch s = faultEvent u .brushSensor (noticeLost ch s) := by
  rw [loseChannel_eq, h, brushReader_brushFn]

/-- FAULT reads the arm's block, the hold set and the cause set, nothing of the inputs (R140). -/
theorem armFails_congr (params : t.params = s.params) (safe : t.safe = s.safe) (u : ArmUnit) (c : ArmFault) (a : Arm) :
    armFails t u c a = armFails s u c a := by
  cases s; cases t
  obtain rfl := params
  obtain rfl := safe
  cases u <;> rfl

theorem loseChannel_cyclicOnly (ch : Fin 6) (s : State) : CyclicOnly (noticeLost ch s).pub (loseChannel ch s).pub := by
  rw [loseChannel_eq]
  split
  · exact (faultEvent_armMoves ..).cyclicOnly
  · exact .refl _

theorem loseChannel_inputs (ch : Fin 6) (s : State) : (loseChannel ch s).inputs = (noticeLost ch s).inputs := by
  rw [loseChannel_eq]
  split
  · exact (faultEvent_frame ..).inputs
  · rfl

/-- What a channel gone LOST does to its reader. -/
theorem loseChannel_reader {ch : Fin 6} {u : ArmUnit} (h : s.inputs.pulse[ch].fn = brushFn u) :
    loseChannel ch s = { s.withArm u ((loseChannel ch s).arm u) with
        inputs := (loseChannel ch s).inputs, pub := (loseChannel ch s).pub }
      ∧ (armPresent s u = true → (s.arm u).state ≠ .stowed → (s.arm u).state ≠ .fault →
          (loseChannel ch s).arm u = armFails s u .brushSensor (s.arm u)
          ∧ (s.loader.station = .operating → ArmAnnounced (loseChannel ch s) u))
      ∧ (armPresent s u = false ∨ (s.arm u).state = .stowed ∨ (s.arm u).state = .fault →
          (loseChannel ch s).arm u = s.arm u) := by
  have noticed := noticeLost_eq ch s
  have arm : (noticeLost ch s).arm u = s.arm u := by rw [noticed]; cases u <;> rfl
  have present : armPresent (noticeLost ch s) u = armPresent s u := by rw [noticed]; cases u <;> rfl
  rw [loseChannel_of_brush h]
  refine ⟨?_, fun p stowed fault => ?_, fun idle => ?_⟩
  · have frame := faultEvent_frame u .brushSensor (noticeLost ch s)
    generalize faultEvent u .brushSensor (noticeLost ch s) = t at frame
    have eq := frame.eq
    rw [frame.inputs]
    rw [noticed] at eq
    cases u <;> exact eq
  · rw [faultEvent_of_active (present.trans p) (by rw [arm]; exact ⟨stowed, fault⟩)]
    refine ⟨?_, fun o => ?_⟩
    · rw [faultArm_armFails, arm]
      exact armFails_congr (by rw [noticed]) (by rw [noticed]) ..
    · rw [armAnnounced_iff]
      exact faultArm_announced (by rw [noticed]; exact o) (present.trans p)
  · rw [faultEvent_of_idle (by rw [present, arm]; exact idle), arm]

theorem exec_stopDeadline {ch : Fin 6} {e : Nat} (run : dutiesRun s = true) (edge : s.inputs.pulse[ch].lastEdge = some e)
    (moving : s.inputs.pulse[ch].state = .tracking ∨ s.inputs.pulse[ch].state = .oneMissing)
    (passed : stopLimit (pulseConst s.params s.inputs.pulse[ch].fn) s.inputs.pulse[ch] ≤ interval s.micros e) :
    exec (.stopDeadline ch) s = .next (if expectMotion s s.inputs.pulse[ch].fn = true then loseChannel ch s
      else setChannel ch (silence .stopped s.inputs.pulse[ch]) s) := by
  have states : (s.inputs.pulse[ch].state == .tracking || s.inputs.pulse[ch].state == .oneMissing) = true := by
    rcases moving with h | h <;> rw [h] <;> rfl
  have due : reached (stopLimit (pulseConst s.params s.inputs.pulse[ch].fn) s.inputs.pulse[ch])
      (sinceEdge s.micros s.inputs.pulse[ch]) = true := by
    rw [sinceEdge, edge]
    exact decide_eq_true passed
  exact congrArg Host.Outcome.next (if_pos (by rw [run, states, due]; rfl))

theorem exec_watchDeadline {ch : Fin 6} {since : Nat} (run : dutiesRun s = true) (stopped : s.inputs.pulse[ch].state = .stopped)
    (expects : expectMotion s s.inputs.pulse[ch].fn = true) (from_ : expectSince s s.inputs.pulse[ch].fn = some since)
    (passed : windowMicros (pulseConst s.params s.inputs.pulse[ch].fn)
      ≤ interval s.micros (match s.inputs.pulse[ch].lastEdge with | some e => max since e | none => since)) :
    exec (.watchDeadline ch) s = .next (loseChannel ch s) := by
  have due : reached (windowMicros (pulseConst s.params s.inputs.pulse[ch].fn))
      ((watchFrom s s.inputs.pulse[ch]).map (interval s.micros)) = true := by
    rw [watchFrom, from_]
    cases edge : s.inputs.pulse[ch].lastEdge with
    | none => rw [edge] at passed; exact decide_eq_true passed
    | some e => rw [edge] at passed; exact decide_eq_true passed
  have states : (s.inputs.pulse[ch].state == .stopped) = true := beq_iff_eq.2 stopped
  exact congrArg Host.Outcome.next (if_pos (by rw [run, states, expects, due]; rfl))

theorem stopLimit_eq (k : PulseConst) (c : PulseChannel) : stopLimit k c = match c.period with
    | some p => min (3 * p) (k.windowSteps * 10000)
    | none => k.windowSteps * 10000 := rfl

/-- Settles O40: both ways into LOST are `loseChannel`. -/
theorem pulseDeadlinesMoveTheChannel : Obligations.PulseDeadlinesMoveTheChannel := by
  intro s ch station c window limit quiet goesLost
  have run : dutiesRun s = true := dutiesRun_iff.2 station
  have lost {command : Instr} (runs : exec command s = .next (loseChannel ch s)) : goesLost command := by
    refine ⟨_, runs, (loseChannel_inputs ch s).trans (noticeLost_inputs ch s),
      ⟨_, noticeLost_asks ch s, (loseChannel_cyclicOnly ch s).events⟩, fun a b => ?_, fun u brush => (loseChannel_reader brush).1,
      fun u brush => (loseChannel_reader brush).2.1, fun u brush => (loseChannel_reader brush).2.2⟩
    rw [loseChannel_eq, brushReader_eq_none a b]
    exact noticeLost_eq ch s
  refine ⟨fun e p edge period tracking below passed => ?missing, fun e edge moving passed => ?stop,
    fun since stopped expects from_ passed => ?watch⟩
  case missing =>
    have due : missingDue (pulseConst s.params c.fn) s.micros c = true := by
      rw [missingDue, period]
      dsimp only
      rw [sinceEdge, edge]
      exact Bool.and_eq_true_iff.2 ⟨decide_eq_true below, decide_eq_true passed⟩
    have states : (c.state == .tracking) = true := beq_iff_eq.2 tracking
    exact congrArg Host.Outcome.next (if_pos (by rw [run, states, due]; rfl))
  case stop =>
    have runs := exec_stopDeadline run edge moving passed
    refine ⟨fun still => ?_, fun moves => lost ?_⟩
    · rw [runs, if_neg (by rw [still]; exact Bool.false_ne_true)]
      rfl
    · rw [runs, if_pos moves]
  case watch => exact lost (exec_watchDeadline run stopped expects from_ passed)

/-! ## Conversions (R117–R119, R172) -/

theorem conversionGood_iff {reading : Nat} : conversionGood reading = true ↔ 20 ≤ reading ∧ reading ≤ 980 := by
  simp [conversionGood]

theorem leavesRange_iff {reading : Nat} {a : AnalogInput} :
    leavesRange reading a = true ↔ a.inRange = true ∧ ¬(20 ≤ reading ∧ reading ≤ 980) := by
  rw [leavesRange, Bool.and_eq_true_iff, Bool.not_eq_true', ← Bool.not_eq_true, conversionGood_iff]

theorem convert_of_bad {reading : Nat} (h : ¬(20 ≤ reading ∧ reading ≤ 980)) (a : AnalogInput) :
    convert reading a = { a with reading := reading, inRange := false, run := 0 } :=
  if_neg (mt conversionGood_iff.1 h)

theorem convert_of_good {reading : Nat} (h : 20 ≤ reading ∧ reading ≤ 980) (a : AnalogInput) : convert reading a =
    if a.inRange then { a with reading := reading, lastGood := some reading }
    else if 100 ≤ a.run + 1 then { a with reading := reading, inRange := true, run := a.run + 1, lastGood := some reading }
    else { a with reading := reading, run := a.run + 1 } :=
  if_pos (conversionGood_iff.2 h)

theorem convert_reading (reading : Nat) (a : AnalogInput) :
    (convert reading a).fn = a.fn ∧ (convert reading a).reading = reading := by
  unfold convert
  split
  · split
    · exact ⟨rfl, rfl⟩
    · split <;> exact ⟨rfl, rfl⟩
  · exact ⟨rfl, rfl⟩

/-- The inputs once a conversion is taken (R117). -/
def converted (s : State) (ai : Fin 4) (reading : Nat) : Inputs := { s.inputs with
  analog := s.inputs.analog.set ai { convert reading s.inputs.analog[ai] with due := s.inputs.analog[ai].due + 1 } }

theorem exec_analogConversion {ai : Fin 4} {reading : Permille} (run : dutiesRun s = true)
    (used : s.inputs.analog[ai].fn ≠ .unused) (due : s.inputs.analog[ai].due ≤ s.micros / 1000) :
    exec (.analogConversion ai reading) s = .next (handConversion s.inputs.analog[ai].fn
      (leavesRange reading.val s.inputs.analog[ai]) reading.val (s.withInputs (converted s ai reading.val))) := by
  have assigned : (s.inputs.analog[ai].fn != .unused) = true := bne_iff_ne.2 used
  exact congrArg Host.Outcome.next (if_pos (by rw [run, assigned]; exact decide_eq_true due))

theorem handAngle_armMoves (u : ArmUnit) (left : Bool) (reading : Nat) (s : State) : ArmMoves u s (handAngle u left reading s) := by
  have compared (s : State) : ArmMoves u s (compareAngle u reading s) := by
    unfold compareAngle
    split
    · exact completeStep_armMoves ..
    · exact .refl ..
  unfold handAngle
  split
  · split
    · exact (faultEvent_armMoves ..).trans (compared _)
    · exact (compared _).trans (faultEvent_armMoves ..)
  · exact compared _

theorem handConversion_inputs (f : AnalogFn) (left : Bool) (reading : Nat) (s : State) :
    (handConversion f left reading s).inputs = s.inputs := by
  cases f with
  | pedal =>
    cases left with
    | true => exact (requestNotice_frame ..).inputs
    | false => rfl
  | angleA => exact (handAngle_frame ..).inputs
  | angleB => exact (handAngle_frame ..).inputs
  | rateKnob | tank | unused => rfl

/-- Settles O41: the range state is `convert`'s, and a PEDAL that leaves its range asks for its notice. -/
theorem conversionMovesTheRangeState : Obligations.ConversionMovesTheRangeState := by
  intro s ai reading station used due a good
  have runs := exec_analogConversion (reading := reading) (dutiesRun_iff.2 station) used due
  obtain ⟨fn, read⟩ := convert_reading reading.val a
  refine ⟨{ convert reading.val a with due := a.due + 1 }, _, runs, handConversion_inputs .., fn, read, rfl, fun bad => ?bad,
    fun isGood inRange => ?stays, fun isGood out => ?back, fun silent => ?silent, fun pedal inRange bad => ?leaves⟩
  case bad => rw [convert_of_bad bad]; exact ⟨rfl, rfl, rfl⟩
  case stays => rw [convert_of_good isGood, if_pos inRange]; exact ⟨inRange, rfl⟩
  case back =>
    rw [convert_of_good isGood, if_neg (by rw [out]; exact Bool.false_ne_true)]
    by_cases enough : 100 ≤ a.run + 1
    · rw [if_pos enough, if_pos enough]; exact ⟨rfl, (decide_eq_true enough).symm, rfl⟩
    · rw [if_neg enough, if_neg enough]; exact ⟨rfl, out.trans (decide_eq_false enough).symm, rfl⟩
  case silent =>
    rw [handConversion_inputs]
    rcases silent with tank | knob | ⟨pedal, stays⟩
    · rw [tank]; rfl
    · rw [knob]; rfl
    · have kept : leavesRange reading.val a = false := Bool.not_eq_true _ ▸ fun leaves => by
        obtain ⟨inRange, bad⟩ := leavesRange_iff.1 leaves
        rcases stays with out | isGood
        · cases inRange.symm.trans out
        · exact bad isGood
      rw [pedal, kept]
      rfl
  case leaves =>
    have left : leavesRange reading.val a = true := leavesRange_iff.2 ⟨inRange, bad⟩
    rw [handConversion_inputs, pedal, left]
    exact ⟨(requestNotice_frame ..).eq, askedEvent_requestEvent (s.withInputs (converted s ai reading.val)) .notice _⟩

/-! ## The console's timers (R177, R178) -/

theorem holdElapsed_iff {start : Nat} (h : s.console.resetHold = some start) :
    holdElapsed s = true ↔ start + 2000 ≤ s.micros / 1000 := by
  rw [holdElapsed, h]
  exact decide_eq_true_iff

theorem checkHold_of_elapsed {start : Nat} (h : s.console.resetHold = some start) (pressed : switchOn s.inputs .resetButton = true)
    (elapsed : start + 2000 ≤ s.micros / 1000) : checkHold s = endHold s := by
  simp [checkHold, (holdElapsed_iff h).2 elapsed, pressed]

theorem endHold_of_rest (h : s.console.pedal = 0) :
    endHold s = requestEvent .clear [15, 12] (s.withConsole { s.console with resetHold := none }) := if_pos h

theorem endHold_of_pedal (h : s.console.pedal ≠ 0) : endHold s = s.withConsole { s.console with resetHold := none } := if_neg h

/-- Settles O52: the hold timer's expiry is `checkHold`, the lamp deadline its own. -/
theorem consoleTimersExpire : Obligations.ConsoleTimersExpire := by
  intro s
  refine ⟨fun start hold pressed elapsed => ⟨fun pedal => ?pedal, fun rest => ?rest, fun rest station free order => ?free⟩,
    fun start hold early => ?early, fun deadline lamp reached => ?lamp, fun deadline lamp early => ?lampEarly⟩
  case pedal => exact congrArg Host.Outcome.next ((checkHold_of_elapsed hold pressed elapsed).trans (endHold_of_pedal pedal))
  case rest =>
    refine ⟨_, askedEvent_requestEvent (s.withConsole { s.console with resetHold := none }) .clear [15, 12], ?_⟩
    refine congrArg Host.Outcome.next ((checkHold_of_elapsed hold pressed elapsed).trans ((endHold_of_rest rest).trans ?_))
    exact (requestEvent_frame ..).eq
  case free =>
    refine ⟨_, insertNew_placed order, ?_⟩
    refine congrArg Host.Outcome.next ((checkHold_of_elapsed hold pressed elapsed).trans ((endHold_of_rest rest).trans ?_))
    exact requestEvent_free .clear [15, 12] (s := s.withConsole { s.console with resetHold := none }) station free
  case early =>
    refine congrArg Host.Outcome.next (if_neg fun due => ?_)
    obtain ⟨elapsed, -⟩ := Bool.and_eq_true_iff.1 due
    exact Nat.not_le.2 early ((holdElapsed_iff hold).1 elapsed)
  case lamp => exact congrArg Host.Outcome.next (if_pos (by rw [lamp]; exact decide_eq_true reached))
  case lampEarly =>
    refine congrArg Host.Outcome.next (if_neg fun due => ?_)
    rw [lamp] at due
    exact Nat.not_le.2 early (of_decide_eq_true due)

end

end Sys2Proof.Machine
end

section
/-! PROOFS. An arm between its periods: a wait's end, the step deadline and the load window (spec/07, 7.4–7.6). -/

namespace Sys2Proof.Machine

section
variable {s t : State} {u : ArmUnit} {a b : Arm}

/-! ## What an arm's transitions and steps leave of it -/

/-- What the transitions and steps of an arm do not touch: the inputs read, the two timers, the load factor, the cause. -/
structure ReadingsKept (a b : Arm) : Prop where
  inputs : b.inputs = a.inputs
  reverse : b.reverse = a.reverse
  deflectOff : b.deflectOff = a.deflectOff
  load : b.load = a.load
  cause : b.cause = a.cause
  due : b.due = a.due

theorem ReadingsKept.refl (a : Arm) : ReadingsKept a a := ⟨rfl, rfl, rfl, rfl, rfl, rfl⟩

theorem ReadingsKept.trans {c : Arm} (h : ReadingsKept a b) (k : ReadingsKept b c) : ReadingsKept a c :=
  ⟨k.inputs.trans h.inputs, k.reverse.trans h.reverse, k.deflectOff.trans h.deflectOff, k.load.trans h.load,
    k.cause.trans h.cause, k.due.trans h.due⟩

theorem armEnters_readings (s : State) (u : ArmUnit) (st : ArmState) (a : Arm) : ReadingsKept a (armEnters s u st a) := by
  obtain ⟨-, -, -, -, -, load, -, -, cause, inputs, -, -, due, reverse, deflect⟩ :=
    enterState_fields (armParams s u) s.micros (ms s) st a
  rw [armEnters_eq]
  exact ⟨inputs, reverse, deflect, load, cause, due⟩

/-- What a change of state leaves of the list and the lines, and what it makes of load window and engagement (R132, R144). -/
theorem armEnters_fields (s : State) (u : ArmUnit) (st : ArmState) (a : Arm) :
    (armEnters s u st a).list = a.list ∧ (armEnters s u st a).levels = a.levels
      ∧ (armEnters s u st a).loadDue = (if st = .sweeping then some (s.micros / 1000 + 500) else none)
      ∧ (armEnters s u st a).engaged = if st = .stowed then false else a.engaged := by
  obtain ⟨-, list, -, -, -, -, window, engaged, -, -, levels, -⟩ := enterState_fields (armParams s u) s.micros (ms s) st a
  rw [armEnters_eq]
  exact ⟨list, levels, window, engaged⟩

theorem stepBegins_readings (s : State) (u : ArmUnit) (st : Step) (a : Arm) : ReadingsKept a (stepBegins s u st a) := by
  cases st with
  | brush on =>
    cases on
    · constructor <;> rfl
    · unfold stepBegins
      dsimp only
      split <;> constructor <;> rfl
  | valve | waitAngle | waitTime | waitDist | waitWater | waitBrush => constructor <;> rfl

theorem stepsRun_readings (s : State) (u : ArmUnit) (l : List Step) (a : Arm) : ReadingsKept a (stepsRun s u l a).1 := by
  induction l generalizing a with
  | nil => constructor <;> rfl
  | cons st rest ih =>
    have begun := stepBegins_readings s u st a
    unfold stepsRun
    dsimp only
    split
    · exact begun.trans ((by constructor <;> rfl : ReadingsKept _ (stepCounted (stepBegins s u st a))).trans (ih _))
    · exact begun

theorem armStarts_readings (s : State) (u : ArmUnit) (st : ArmState) (l : ListName) (a : Arm) :
    ReadingsKept a (armStarts s u st l a).1 :=
  (by constructor <;> rfl : ReadingsKept a { a with
    list := l, remaining := (listSteps (armParams s u) l).length, deadline := none, record := .none,
    brushOnRun := false }).trans ((armEnters_readings ..).trans (stepsRun_readings ..))

theorem armRetracts_readings (s : State) (u : ArmUnit) (a : Arm) : ReadingsKept a (armRetracts s u a) := by
  have started := armStarts_readings s u .retracting .retract a
  unfold armRetracts
  dsimp only
  split
  · exact started.trans (armEnters_readings ..)
  · exact started

theorem armEnds_readings (s : State) (u : ArmUnit) (l : ListName) (a : Arm) : ReadingsKept a (armEnds s u l a) := by
  cases l with
  | none => exact .refl a
  | deploy | resume | retract => exact armEnters_readings ..
  | yield =>
    unfold armEnds
    dsimp only
    split
    · exact armRetracts_readings ..
    · exact armEnters_readings ..

theorem armTakes_readings (s : State) (u : ArmUnit) (l : ListName) (a : Arm) : ReadingsKept a (armTakes s u l a) := by
  have taken (st : ArmState) : ReadingsKept a
      (if (armStarts s u st l a).2 = true then armEnds s u l (armStarts s u st l a).1 else (armStarts s u st l a).1) := by
    split
    · exact (armStarts_readings ..).trans (armEnds_readings ..)
    · exact armStarts_readings ..
  cases l <;> exact taken _

/-! ## The state that a list leads to (R128–R132) -/

/-- A list that comes to rest leaves the state of its transition; one done at once leads on. -/
theorem armRetracts_state (s : State) (u : ArmUnit) (a : Arm) :
    (armRetracts s u a).state = .retracting ∨ (armRetracts s u a).state = .stowed := (armTakes_retract_state s u a).1

theorem armTakes_deploy_state (s : State) (u : ArmUnit) (a : Arm) :
    (armTakes s u .deploy a).state = .deploying ∨ (armTakes s u .deploy a).state = .sweeping := by
  unfold armTakes
  dsimp only
  split
  · exact .inr (armEnters_state ..).1
  · exact .inl (armStarts_state ..).1

theorem armTakes_resume_state (s : State) (u : ArmUnit) (a : Arm) :
    (armTakes s u .resume a).state = .resuming ∨ (armTakes s u .resume a).state = .sweeping := by
  unfold armTakes
  dsimp only
  split
  · exact .inr (armEnters_state ..).1
  · exact .inl (armStarts_state ..).1

/-- The end of a YIELD list goes by the retract condition as last read (R131). -/
theorem armTakes_yield_state (s : State) (u : ArmUnit) (a : Arm) :
    (armTakes s u .yield a).state = .yielding ∨ (armTakes s u .yield a).state = .yielded
      ∨ (a.inputs.heard = false ∨ a.inputs.mode ≠ .sweep ∨ a.inputs.request = .retract)
        ∧ ((armTakes s u .yield a).state = .retracting ∨ (armTakes s u .yield a).state = .stowed) := by
  have inputs := (armStarts_readings s u .yielding .yield a).inputs
  unfold armTakes
  dsimp only
  split
  · unfold armEnds
    dsimp only
    rw [inputs]
    split
    · rename_i retracts
      exact .inr (.inr ⟨retracts, armRetracts_state ..⟩)
    · exact .inr (.inl (armEnters_state ..).1)
  · exact .inl (armStarts_state ..).1

/-- The end of a list leaves an arm that is not in FAULT out of it. -/
theorem armEnds_ne_fault (l : ListName) (h : a.state ≠ .fault) : (armEnds s u l a).state ≠ .fault := by
  have entered {st : ArmState} (ne : st ≠ .fault) : (armEnters s u st a).state ≠ .fault := by
    rw [(armEnters_state ..).1]; exact ne
  cases l with
  | none => exact h
  | deploy => exact entered (st := .sweeping) (by decide)
  | resume => exact entered (st := .sweeping) (by decide)
  | retract => exact entered (st := .stowed) (by decide)
  | yield =>
    unfold armEnds
    dsimp only
    split
    · rcases armRetracts_state s u a with h | h <;> rw [h] <;> decide
    · exact entered (by decide)

theorem stepDone_ne_fault (h : a.state ≠ .fault) : (stepDone s u a).state ≠ .fault := by
  have run : (stepsRun s u (stepsLeft (armParams s u) (stepCounted a)) (stepCounted a)).1.state ≠ .fault := by
    rw [(stepsRun_state ..).1]; exact h
  unfold stepDone
  dsimp only
  split
  · exact armEnds_ne_fault _ run
  · exact run

/-! ## Steps left (R134) -/

theorem stepsLeft_of_no_list (p : ArmParams) (h : a.list = .none) : stepsLeft p a = [] := by
  rw [stepsLeft, h]
  exact List.drop_nil

theorem stepInProgress_of_no_list (h : (s.arm u).list = .none) : stepInProgress s u = none := by
  rw [stepInProgress, stepsLeft_of_no_list _ h]
  rfl

/-- With the step in progress counted, the steps after it are left. -/
theorem stepsLeft_stepCounted {p : ArmParams} {st : Step} {rest : List Step} (bound : a.remaining ≤ (listSteps p a.list).length)
    (left : stepsLeft p a = st :: rest) : stepsLeft p (stepCounted a) = rest := by
  have length : (stepsLeft p a).length = a.remaining := by rw [stepsLeft, List.length_drop]; omega
  have some_left : 0 < a.remaining := by rw [← length, left]; exact Nat.succ_pos _
  have next : (listSteps p a.list).length - (a.remaining - 1) = (listSteps p a.list).length - a.remaining + 1 := by omega
  calc stepsLeft p (stepCounted a) = (listSteps p a.list).drop ((listSteps p a.list).length - (a.remaining - 1)) := rfl
    _ = (stepsLeft p a).tail := by rw [next, stepsLeft, List.tail_drop]
    _ = rest := by rw [left]; rfl

/-- The last step counted leaves none. -/
theorem stepsLeft_of_last {p : ArmParams} (last : a.remaining = 1) : stepsLeft p (stepCounted a) = [] := by
  have none_left : (stepCounted a).remaining = 0 := by rw [stepCounted, last]
  rw [stepsLeft, none_left, Nat.sub_zero, List.drop_length]

/-! ## A completed step (R134) -/

/-- Running steps asks for nothing. -/
theorem runSteps_pub (u : ArmUnit) (l : List Step) (s : State) : (runSteps u l s).1.pub = s.pub := by
  induction l generalizing s with
  | nil => rfl
  | cons st rest ih =>
    have begun : (beginStep u st s).pub = s.pub := by rw [beginStep_eq, State.withArm_pub]
    unfold runSteps
    dsimp only
    split
    · rw [ih, State.withArm_pub, begun]
    · exact begun

/-- A completed step leaves the arm at a wait of its list, or takes it where the done list leads; the state is as it was until
then. -/
theorem completeStep_cases (u : ArmUnit) (s : State) : ∃ r, KeepsAllButArm u s r ∧ r.pub = s.pub
    ∧ (r.arm u).state = (s.arm u).state
    ∧ r.arm u = (stepsRun s u (stepsLeft (armParams s u) (stepCounted (s.arm u))) (stepCounted (s.arm u))).1
    ∧ completeStep u s = if (stepsRun s u (stepsLeft (armParams s u) (stepCounted (s.arm u))) (stepCounted (s.arm u))).2 = true
      then finishList u (s.arm u).list r else r := by
  obtain ⟨c, hc⟩ : ∃ c, c = s.withArm u (countStep (s.arm u)) := ⟨_, rfl⟩
  have counted : c.arm u = stepCounted (s.arm u) := by rw [hc, State.withArm_arm_same]; rfl
  have frame : KeepsAllButArm u s c := by rw [hc]; exact .withArm ..
  have steps : stepsLeft (armParams c u) (c.arm u) = stepsLeft (armParams s u) (stepCounted (s.arm u)) := by
    rw [counted, frame.armParams_eq]
  obtain ⟨arm, done⟩ := runSteps_stepsRun u (stepsLeft (armParams s u) (stepCounted (s.arm u))) c
  rw [frame.around.stepsRun, counted] at arm done
  refine ⟨(endList u (runSteps u (stepsLeft (armParams s u) (stepCounted (s.arm u))) c)).1,
    frame.trans ((runSteps_frame ..).trans (endList_frame ..)), ?_, ?_, arm, ?_⟩
  · have pub := runSteps_pub u (stepsLeft (armParams s u) (stepCounted (s.arm u))) c
    have kept : c.pub = s.pub := by rw [hc, State.withArm_pub]
    unfold endList
    dsimp only
    split
    · rw [State.withArm_pub, pub, kept]
    · rw [pub, kept]
  · rw [arm, (stepsRun_state ..).1]; rfl
  · rw [← done, ← steps, hc]
    rfl

/-- A completed step that changes the state announces the arm (R55, R134). -/
theorem completeStep_announced (h : ArmPublishes s u) (moved : ((completeStep u s).arm u).state ≠ (s.arm u).state) :
    Announced (completeStep u s) (armTopic u) := by
  obtain ⟨r, frame, -, same, -, eq⟩ := completeStep_cases u s
  rw [eq] at moved ⊢
  split at moved
  · rename_i done
    rw [if_pos done]
    refine finishList_announced (fun none => moved ?_) (h.of_frame frame)
    rw [none]
    exact same
  · exact absurd same moved

/-! ## WAIT_TIME (R136) -/

theorem waitTimeOver_iff {units start : Nat} (step : stepInProgress s u = some (.waitTime units))
    (record : (s.arm u).record = .time start) : waitTimeOver s u = true ↔ start + units * 50 ≤ s.micros / 1000 := by
  rw [waitTimeOver, step, record]
  exact decide_eq_true_iff

theorem waitTimeOver_of_other (other : ∀ units, stepInProgress s u ≠ some (.waitTime units)) : waitTimeOver s u = false := by
  unfold waitTimeOver
  split
  · rename_i units _ step _
    exact absurd step (other units)
  · rfl

theorem exec_waitTimeComplete (p : armPresent s u = true) (elapsed : waitTimeOver s u = true) :
    exec (.waitTimeComplete u) s = .next (completeStep u s) :=
  congrArg Host.Outcome.next (if_pos (by rw [p, elapsed]; rfl))

theorem exec_waitTimeComplete_early (early : waitTimeOver s u = false) : exec (.waitTimeComplete u) s = .next s :=
  congrArg Host.Outcome.next (if_neg (by rw [early, Bool.and_false]; exact Bool.false_ne_true))

/-- The lines after some VALVE steps (R135). -/
def linesSet (valves : List (Fin 4 × Bool)) (levels : Vector Bool 4) : Vector Bool 4 := valves.foldl (fun l v => l.set v.1 v.2) levels

/-- VALVE steps are all done at the instant they begin (R134, R135). -/
theorem stepsRun_valves (valves : List (Fin 4 × Bool)) (rest : List Step) (a : Arm) (deadline : a.deadline = none)
    (record : a.record = .none) : stepsRun s u ((valves.map fun v => Step.valve v.1 v.2) ++ rest) a
      = stepsRun s u rest { a with levels := linesSet valves a.levels, remaining := a.remaining - valves.length } := by
  induction valves generalizing a with
  | nil => rfl
  | cons v more ih =>
    have first := ih (stepCounted (stepBegins s u (.valve v.1 v.2) a)) rfl rfl
    have same : { stepCounted (stepBegins s u (.valve v.1 v.2) a) with
          levels := linesSet more (a.levels.set v.1 v.2), remaining := a.remaining - 1 - more.length }
        = { a with levels := linesSet (v :: more) a.levels, remaining := a.remaining - (more.length + 1) } := by
      rw [Nat.sub_sub, Nat.add_comm 1]
      cases a
      obtain rfl := deadline
      obtain rfl := record
      rfl
    exact first.trans (congrArg (stepsRun s u rest) same)

/-- Settles O46: the completed step is `completeStep`, and the VALVE steps after it are all done at once. -/
theorem waitTimeRunsTheListOn : Obligations.WaitTimeRunsTheListOn := by
  intro s u p
  refine ⟨fun units start step record => ⟨fun early => ?early, fun elapsed => ?elapsed⟩, fun other => ?other,
    fun units start valves rest bounded record elapsed left => ?lists⟩
  case early =>
    exact exec_waitTimeComplete_early (Bool.not_eq_true _ ▸ mt (waitTimeOver_iff step record).1 (Nat.not_le.2 early))
  case elapsed =>
    refine ⟨_, exec_waitTimeComplete p ((waitTimeOver_iff step record).2 elapsed), ?_, (completeStep_armMoves ..).sameEvents,
      fun moved o => armAnnounced_iff.2 (completeStep_announced ⟨o, p⟩ moved)⟩
    rw [← completeStep_stepDone]
    exact (completeStep_frame u s).eq
  case other => exact exec_waitTimeComplete_early (waitTimeOver_of_other other)
  case lists =>
    intro levels
    have step : stepInProgress s u = some (.waitTime units) := by rw [stepInProgress, left]; rfl
    have runs := exec_waitTimeComplete p ((waitTimeOver_iff step record).2 elapsed)
    have next : stepsLeft (armParams s u) (stepCounted (s.arm u)) = (valves.map fun v => Step.valve v.1 v.2) ++ rest :=
      stepsLeft_stepCounted bounded.remaining left
    obtain ⟨r, frame, pub, -, arm, eq⟩ := completeStep_cases u s
    rw [next, stepsRun_valves _ _ _ rfl rfl] at arm eq
    refine ⟨fun below threshold more angle unmet => ?_, fun done ends => ⟨_, runs, ?_⟩⟩
    · have waits : stepMet s u (stepBegins s u (.waitAngle below threshold) { stepCounted (s.arm u) with
          levels := linesSet valves (s.arm u).levels, remaining := (s.arm u).remaining - 1 - valves.length })
          (.waitAngle below threshold) = false := by
        cases below
        · exact decide_eq_false (Nat.not_lt.2 (by simpa using unmet))
        · exact decide_eq_false (Nat.not_lt.2 (by simpa using unmet))
      have rests : stepsRun s u rest { stepCounted (s.arm u) with
          levels := linesSet valves (s.arm u).levels, remaining := (s.arm u).remaining - 1 - valves.length }
          = (stepBegins s u (.waitAngle below threshold) { stepCounted (s.arm u) with
            levels := linesSet valves (s.arm u).levels, remaining := (s.arm u).remaining - 1 - valves.length }, false) := by
        rw [angle, stepsRun]
        exact if_neg (by rw [waits]; exact Bool.false_ne_true)
      have resting := arm.trans (congrArg Prod.fst rests)
      have stays : completeStep u s = r := eq.trans (if_neg (by
        refine fun done => Bool.false_ne_true ?_
        exact (congrArg Prod.snd rests).symm.trans done))
      rw [runs, stays, frame.eq, resting, pub]
      refine congrArg Host.Outcome.next ?_
      cases u <;> rfl
    · have arm' := completeStep_stepDone u s
      have finished : stepDone s u (s.arm u) = armEnds s u (s.arm u).list { stepCounted (s.arm u) with
          levels := levels, list := .none, remaining := 0 } := by
        unfold stepDone
        dsimp only
        rw [next, stepsRun_valves _ _ _ rfl rfl, done]
        rfl
      rw [arm', finished]
      have entered (st : ArmState) := armEnters_fields s u st { stepCounted (s.arm u) with levels := levels, list := .none, remaining := 0 }
      have state (st : ArmState) := (armEnters_state s u st { stepCounted (s.arm u) with levels := levels, list := .none, remaining := 0 }).1
      cases list : (s.arm u).list with
      | none =>
        refine ⟨rfl, rfl, fun h => ?_, fun h => ?_⟩
        · rcases h with h | h <;> cases h
        · cases h
      | yield => exact absurd list ends
      | deploy | resume =>
        obtain ⟨listed, lines, window, -⟩ := entered .sweeping
        exact ⟨listed, lines, fun _ => ⟨state .sweeping, window⟩, fun h => by cases h⟩
      | retract =>
        obtain ⟨listed, lines, -, engaged⟩ := entered .stowed
        refine ⟨listed, lines, fun h => ?_, fun _ => ⟨state .stowed, engaged⟩⟩
        rcases h with h | h <;> cases h

/-! ## The step deadline (R138) -/

theorem reformArmClaim_paceRises (u : ArmUnit) (x : Arm) (s : State) : PaceRises s (reformArmClaim u (s.withArm u x)) := by
  have pub : (setArmClaim u (s.withArm u x)).pub = s.pub := by rw [setArmClaim, State.withArm_pub, State.withArm_pub]
  exact paceRises_checkUrgency (by rw [pub]) (by rw [pub]; exact .refl ..)

/-- FAULT builds PACE at a rise of urgency (R55, R70, R140). -/
theorem faultArm_paceRises (u : ArmUnit) (c : ArmFault) (s : State) : PaceRises s (faultArm u c s) :=
  (reformArmClaim_paceRises u _ s).after_requestCyclic (armTopic_ne_pace u)

/-- FAULT spelled out (R68, R140, R145). -/
theorem armFails_eq (s : State) (u : ArmUnit) (c : ArmFault) (a : Arm) : armFails s u c a = { a with
    state := .fault
    cause := c
    list := .none
    remaining := 0
    deadline := none
    record := .none
    engaged := false
    brushOnRun := false
    target := 0
    trim := 0
    pwm := 0
    loadDue := none
    expectSince := none
    levels := holdLevels s.safe.hold (armParams s u)
    claim := some (if isSafe s = true then ⟨0, .stop, .stationSafe⟩ else ⟨0, .prompt, .armFault⟩) } := rfl

/-- Settles O47: the deadline passed is a fault event. -/
theorem stepDeadlineFailsTheArm : Obligations.StepDeadlineFailsTheArm := by
  intro s u deadline p set
  refine ⟨fun early => ?early, fun passed stowed fault => ?passed⟩
  case early =>
    refine congrArg Host.Outcome.next (if_neg fun due => ?_)
    rw [set] at due
    exact Nat.not_le.2 early (of_decide_eq_true due)
  case passed =>
    have runs : exec (.stepDeadline u) s = .next (faultArm u .stepTimeout s) := by
      rw [← faultEvent_of_active p ⟨stowed, fault⟩]
      exact congrArg Host.Outcome.next (if_pos (by rw [set]; exact decide_eq_true passed))
    refine ⟨_, runs, (faultArm_frame ..).eq, (faultArm_armMoves ..).sameEvents, faultArm_paceRises ..,
      fun o => armAnnounced_iff.2 (faultArm_announced o p), ?_⟩
    rw [faultArm_armFails, armFails_eq]

/-! ## The load window (R144) -/

theorem brushMeasured_iff : brushMeasured s u = true ↔ ∃ c, fnState s (brushFn u) = some c ∧ c ≠ .lost := by
  unfold brushMeasured
  cases fnState s (brushFn u) <;> simp

/-- The load factor that a window leaves (R144). -/
def loadAfter (s : State) (u : ArmUnit) : Nat :=
  if brushMeasured s u then nextLoad (fnValue s (brushFn u)) (s.arm u).target (s.arm u).load else (s.arm u).load

theorem loadWindow_of_kept {expiry : Nat} (kept : loadAfter s u = (s.arm u).load) :
    loadWindow u expiry s = s.withArm u { s.arm u with load := loadAfter s u, loadDue := some (expiry + 500) } := if_pos kept

theorem loadWindow_of_moved {expiry : Nat} (moved : loadAfter s u ≠ (s.arm u).load) :
    loadWindow u expiry s
      = reformArmClaim u (s.withArm u { s.arm u with load := loadAfter s u, loadDue := some (expiry + 500) }) := if_neg moved

theorem loadAfter_of_measured (counts : ∃ c, fnState s (brushFn u) = some c ∧ c ≠ .lost) :
    loadAfter s u = nextLoad (fnValue s (brushFn u)) (s.arm u).target (s.arm u).load := if_pos (brushMeasured_iff.2 counts)

/-- The claim formed anew after a window is that of the arm's state with the new load factor (R123, R145). -/
theorem loadWindow_claim {expiry : Nat} (moved : loadAfter s u ≠ (s.arm u).load) : (loadWindow u expiry s).arm u = { s.arm u with
    load := loadAfter s u
    loadDue := some (expiry + 500)
    claim := some (armHolds s u { s.arm u with load := loadAfter s u }) } := by
  rw [loadWindow_of_moved moved, reformArmClaim_arm, State.withArm_arm_same, armParams_withArm, armHolds_eq]
  simp only [formClaim, isSafe_withArm]
  rfl

/-- The arm after a window: its load factor, its timer and its claim alone may have moved. -/
theorem loadWindow_only (u : ArmUnit) (expiry : Nat) (s : State) : (loadWindow u expiry s).arm u = { s.arm u with
    load := loadAfter s u
    loadDue := some (expiry + 500)
    claim := ((loadWindow u expiry s).arm u).claim } := by
  by_cases kept : loadAfter s u = (s.arm u).load
  · rw [loadWindow_of_kept kept, State.withArm_arm_same]
  · rw [loadWindow_claim kept]

/-- Settles O48: the window is `loadWindow`, by whether the load factor moves. -/
theorem loadWindowMovesTheLoadFactor : Obligations.LoadWindowMovesTheLoadFactor := by
  intro s u due p sweeping set passed a q measured counts ceiling
  have runs : exec (.loadWindowExpiry u) s = .next (loadWindow u due s) := by
    have reached : due ≤ ms s := passed
    simp [exec, execLoadWindowExpiry, set, p, sweeping, reached]
  have only := loadWindow_only u due s
  have load : ((loadWindow u due s).arm u).load = loadAfter s u := by rw [only]
  have claim (moved : loadAfter s u ≠ a.load) :
      ((loadWindow u due s).arm u).claim = some (armHolds s u { a with load := loadAfter s u }) := by rw [loadWindow_claim moved]
  refine ⟨_, runs, by rw [only], ?low, ?high, ?between, ?unmeasured, (loadWindow_frame ..).eq, (loadWindow_armMoves ..).sameEvents, ?arm,
    ?still, ?free, ?safe, ?published⟩
  case low =>
    intro counted low
    rw [load, loadAfter_of_measured counted]
    exact if_pos low
  case high =>
    intro counted high higher
    rw [load, loadAfter_of_measured counted]
    exact (if_neg (Nat.not_lt.2 high)).trans (if_pos higher)
  case between =>
    intro counted high low
    rw [load, loadAfter_of_measured counted]
    exact (if_neg (Nat.not_lt.2 high)).trans (if_neg (Nat.not_le.2 low))
  case unmeasured =>
    intro uncounted
    rw [load]
    exact if_neg (mt brushMeasured_iff.1 uncounted)
  case arm => rw [load]; exact only
  case still =>
    intro kept
    rw [load] at kept
    rw [loadWindow_of_kept kept, State.withArm_arm_same]
  case free =>
    intro moved free
    rw [load] at moved
    have unsafe_off : ¬isSafe s = true := by rw [free]; exact Bool.false_ne_true
    rw [claim moved, load, armHolds, if_neg unsafe_off]
    dsimp only
    rw [sweeping]
  case safe =>
    intro moved safe
    rw [load] at moved
    rw [claim moved, armHolds, if_pos safe]
  case published =>
    intro moved
    rw [load] at moved
    obtain ⟨x, eq⟩ : ∃ x, loadWindow u due s = checkUrgency (s.withArm u x) := ⟨_, by
      rw [loadWindow_of_moved moved, reformArmClaim, setArmClaim, State.withArm_withArm]⟩
    have arm : (loadWindow u due s).arm u = x := by rw [eq, (checkUrgency_frame _).arm, State.withArm_arm_same]
    rw [arm, eq]
    exact checkUrgency_claimPublished _

end

end Sys2Proof.Machine
end

section
/-! PROOFS. What conversions of an angle and samples of a switch hand to their duties (spec/06, 6.3 and 6.4; spec/07; spec/09). -/

namespace Sys2Proof.Machine

section
variable {s t : State} {u : ArmUnit} {a : Arm} {reading : Nat}

/-! ## A fault event (R139, R140) -/

/-- An arm at a fault event: in FAULT when it was active. -/
def armFaulted (s : State) (u : ArmUnit) (c : ArmFault) (a : Arm) : Arm :=
  if a.state ≠ .stowed ∧ a.state ≠ .fault then armFails s u c a else a

theorem stowed_or_fault (idle : ¬(a.state ≠ .stowed ∧ a.state ≠ .fault)) : a.state = .stowed ∨ a.state = .fault := by
  by_cases stowed : a.state = .stowed
  · exact .inl stowed
  · exact .inr (Classical.byContradiction fun fault => idle ⟨stowed, fault⟩)

theorem faultEvent_arm (c : ArmFault) (p : armPresent s u = true) : (faultEvent u c s).arm u = armFaulted s u c (s.arm u) := by
  by_cases active : (s.arm u).state ≠ .stowed ∧ (s.arm u).state ≠ .fault
  · rw [faultEvent_of_active p active, faultArm_armFails, armFaulted, if_pos active]
  · rw [faultEvent_of_idle (.inr (stowed_or_fault active)), armFaulted, if_neg active]

/-- A fault event does nothing or puts the arm in FAULT and announces it (R55, R140). -/
theorem faultEvent_announced (c : ArmFault) (h : ArmPublishes s u) :
    faultEvent u c s = s ∨ Announced (faultEvent u c s) (armTopic u) := by
  by_cases active : (s.arm u).state ≠ .stowed ∧ (s.arm u).state ≠ .fault
  · rw [faultEvent_of_active h.2 active]
    exact .inr (faultArm_announced h.1 h.2)
  · exact .inl (faultEvent_of_idle (.inr (stowed_or_fault active)))

/-! ## A conversion of an arm's angle (R136, R139) -/

theorem angleCompletes_iff {below : Bool} {threshold : Nat} (step : stepInProgress s u = some (.waitAngle below threshold)) :
    angleCompletes u reading s = true ↔ if below then reading < threshold else threshold < reading := by
  rw [angleCompletes, step]
  cases below <;> exact decide_eq_true_iff

theorem angleCompletes_of_other (other : ∀ below threshold, stepInProgress s u ≠ some (.waitAngle below threshold)) :
    angleCompletes u reading s = false := by
  cases step : stepInProgress s u with
  | none => rw [angleCompletes, step]
  | some st =>
    cases st with
    | waitAngle below threshold => exact absurd step (other below threshold)
    | valve | brush | waitTime | waitDist | waitWater | waitBrush => rw [angleCompletes, step]

theorem compareAngle_of_unmet (unmet : angleCompletes u reading s = false) : compareAngle u reading s = s :=
  if_neg (by rw [unmet, Bool.and_false]; exact Bool.false_ne_true)

theorem compareAngle_of_met (p : armPresent s u = true) (met : angleCompletes u reading s = true) :
    compareAngle u reading s = completeStep u s := if_pos (by rw [p, met]; rfl)

theorem compareAngle_announced (h : ArmPublishes s u) (moved : ((compareAngle u reading s).arm u).state ≠ (s.arm u).state) :
    Announced (compareAngle u reading s) (armTopic u) := by
  cases met : angleCompletes u reading s with
  | true =>
    rw [compareAngle_of_met h.2 met] at moved ⊢
    exact completeStep_announced h moved
  | false =>
    rw [compareAngle_of_unmet met] at moved
    exact absurd rfl moved

/-- An arm in FAULT has no step that an angle could complete (R140). -/
theorem compareAngle_faultArm (c : ArmFault) : compareAngle u reading (faultArm u c s) = faultArm u c s := by
  refine compareAngle_of_unmet (angleCompletes_of_other fun below threshold step => ?_)
  have gone : ((faultArm u c s).arm u).list = .none := by rw [faultArm_armFails, armFails_eq]
  rw [stepInProgress_of_no_list gone] at step
  cases step

theorem handAngle_of_unmet (p : armPresent s u = true) (unmet : angleCompletes u reading s = false) :
    handAngle u true reading s = faultEvent u .angleRange s := by
  have compared : compareAngle u reading (faultEvent u .angleRange s) = faultEvent u .angleRange s := by
    by_cases active : (s.arm u).state ≠ .stowed ∧ (s.arm u).state ≠ .fault
    · rw [faultEvent_of_active p active, compareAngle_faultArm]
    · rw [faultEvent_of_idle (.inr (stowed_or_fault active)), compareAngle_of_unmet unmet]
  rw [handAngle, if_pos rfl, compared, compareAngle_of_unmet unmet, ite_self]

/-- An active arm whose step the leaving reading completes: either comes first (notes/assumptions/9.md). -/
theorem handAngle_of_met (p : armPresent s u = true) (active : (s.arm u).state ≠ .stowed ∧ (s.arm u).state ≠ .fault)
    (met : angleCompletes u reading s = true) : handAngle u true reading s = if Config.angleFaultFirst s.micros = true
      then faultArm u .angleRange s else faultEvent u .angleRange (completeStep u s) := by
  rw [handAngle, if_pos rfl, faultEvent_of_active p active, compareAngle_faultArm, compareAngle_of_met p met]

/-- The arm after a conversion of its angle, by whether the reading leaves the range and completes the step in progress. -/
theorem handAngle_arm_of_met (p : armPresent s u = true) (active : (s.arm u).state ≠ .stowed ∧ (s.arm u).state ≠ .fault)
    (met : angleCompletes u reading s = true) : (handAngle u true reading s).arm u = if Config.angleFaultFirst s.micros = true
      then armFails s u .angleRange (s.arm u) else armFaulted s u .angleRange (stepDone s u (s.arm u)) := by
  have frame := completeStep_frame u s
  rw [handAngle_of_met p active met]
  split
  · exact faultArm_armFails ..
  · rw [faultEvent_arm _ ((frame.armPresent_eq u).trans p), completeStep_stepDone, armFaulted, armFaulted, frame.around.armFails]

/-- A conversion that changes the arm's state announces it (R55). -/
theorem handAngle_announced (left : Bool) (h : ArmPublishes s u)
    (moved : ((handAngle u left reading s).arm u).state ≠ (s.arm u).state) : Announced (handAngle u left reading s) (armTopic u) := by
  cases left with
  | false => exact compareAngle_announced h moved
  | true =>
    by_cases active : (s.arm u).state ≠ .stowed ∧ (s.arm u).state ≠ .fault
    · cases met : angleCompletes u reading s with
      | false =>
        rw [handAngle_of_unmet h.2 met, faultEvent_of_active h.2 active]
        exact faultArm_announced h.1 h.2
      | true =>
        rw [handAngle_of_met h.2 active met] at moved ⊢
        split
        · exact faultArm_announced h.1 h.2
        · rename_i later
          rw [if_neg later] at moved
          rcases faultEvent_announced .angleRange (h.of_frame (completeStep_frame u s)) with stays | announced
          · rw [stays] at moved ⊢
            exact completeStep_announced h moved
          · exact announced
    · have idle := stowed_or_fault active
      have first : faultEvent u .angleRange s = s := faultEvent_of_idle (.inr idle)
      rw [handAngle, if_pos rfl, first] at moved ⊢
      split
      · rename_i order
        rw [if_pos order] at moved
        exact compareAngle_announced h moved
      · rename_i order
        rw [if_neg order] at moved
        rcases faultEvent_announced .angleRange (h.of_frame (compareAngle_frame u reading s)) with stays | announced
        · rw [stays] at moved ⊢
          exact compareAngle_announced h moved
        · exact announced

/-- The last step of a DEPLOY or RESUME list completed: SWEEPING, with its load window (R129, R134, R144). -/
theorem stepDone_of_last (last : a.remaining = 1) (list : a.list = .deploy ∨ a.list = .resume) :
    (stepDone s u a).state = .sweeping ∧ (stepDone s u a).list = .none
      ∧ (stepDone s u a).loadDue = some (s.micros / 1000 + 500) := by
  have done : stepDone s u a = armEnters s u .sweeping { stepCounted a with
      list := .none, remaining := 0, deadline := none, record := .none } := by
    unfold stepDone
    dsimp only
    rw [stepsLeft_of_last last]
    rcases list with list | list <;> rw [list] <;> rfl
  obtain ⟨listed, -, window, -⟩ := armEnters_fields s u .sweeping { stepCounted a with
    list := .none, remaining := 0, deadline := none, record := .none }
  rw [done]
  exact ⟨(armEnters_state ..).1, listed, window⟩

theorem angleFn_used (u : ArmUnit) : angleFn u ≠ .unused := by cases u <;> decide

theorem handConversion_angle (u : ArmUnit) (left : Bool) (reading : Nat) (s : State) :
    handConversion (angleFn u) left reading s = handAngle u left reading s := by cases u <;> rfl

/-- Settles O42: the conversion is `handAngle` on the inputs that it leaves. -/
theorem angleConversionReachesItsArm : Obligations.AngleConversionReachesItsArm := by
  intro s ai reading u station fn due p a good leaves active
  obtain ⟨q, hq⟩ : ∃ q, q = s.withInputs (converted s ai reading.val) := ⟨_, rfl⟩
  have left_iff : leavesRange reading.val a = true ↔ leaves := leavesRange_iff
  obtain ⟨left, hleft⟩ : ∃ left, left = leavesRange reading.val a := ⟨_, rfl⟩
  have runs : exec (.analogConversion ai reading) s = .next (handAngle u left reading.val q) := by
    rw [exec_analogConversion (dutiesRun_iff.2 station) (by rw [fn]; exact angleFn_used u) due, fn, handConversion_angle, hleft, hq]
  rw [← hleft] at left_iff
  have arm : q.arm u = s.arm u := by rw [hq]; cases u <;> rfl
  have present : armPresent q u = true := by rw [hq]; cases u <;> exact p
  have loader : q.loader = s.loader := by rw [hq]; rfl
  have pub : q.pub = s.pub := by rw [hq]; rfl
  have micros : q.micros = s.micros := by rw [hq]; rfl
  have step : stepInProgress q u = stepInProgress s u := by rw [hq]; cases u <;> rfl
  have moves := handAngle_armMoves u left reading.val q
  have frame := handAngle_frame u left reading.val q
  have now : { s with inputs := (handAngle u left reading.val q).inputs } = q := by rw [frame.inputs, hq]; rfl
  have entered (l : left = true) : leaves := left_iff.1 l
  have stays (l : ¬leaves) : left = false := Bool.not_eq_true _ ▸ mt left_iff.1 l
  refine ⟨_, runs, ?changes, fun below threshold isGood waits met last list => ?swept, fun inRange bad stowed fault => ?faults⟩
  case changes =>
    rw [now]
    intro fails
    refine ⟨frame.eq, pub ▸ moves.sameEvents, fun moved o => armAnnounced_iff.2 ?_, fun below threshold waits => ?_, fun other => ?_⟩
    · exact handAngle_announced left ⟨loader ▸ o, present⟩ (by rw [arm]; exact moved)
    · intro met
      have met_iff : angleCompletes u reading.val q = true ↔ met := angleCompletes_iff (step.trans waits)
      refine ⟨fun l m => ?_, fun l m => ?_, fun l m => ?_, fun l m act => ?_⟩
      · rw [stays l]
        exact compareAngle_of_unmet (Bool.not_eq_true _ ▸ mt met_iff.1 m)
      · rw [left_iff.2 l, handAngle_of_unmet present (Bool.not_eq_true _ ▸ mt met_iff.1 m), faultEvent_arm _ present, arm]
        rfl
      · rw [stays l]
        refine (congrArg (State.arm · u) (compareAngle_of_met present (met_iff.2 m))).trans ?_
        rw [completeStep_stepDone, arm]
      · rw [left_iff.2 l, handAngle_arm_of_met present (by rw [arm]; exact act) (met_iff.2 m), arm, micros]
        rfl
    · have unmet : angleCompletes u reading.val q = false := angleCompletes_of_other fun b th => step ▸ other b th
      refine ⟨fun l => ?_, fun l => ?_⟩
      · rw [stays l]
        exact compareAngle_of_unmet unmet
      · rw [left_iff.2 l, handAngle_of_unmet present unmet, faultEvent_arm _ present, arm]
        rfl
  case swept =>
    have kept : left = false := stays fun l => l.2 isGood
    have completes : angleCompletes u reading.val q = true := (angleCompletes_iff (step.trans waits)).2 met
    have done : (handAngle u left reading.val q).arm u = stepDone q u (s.arm u) := by
      rw [kept]
      refine (congrArg (State.arm · u) (compareAngle_of_met present completes)).trans ?_
      rw [completeStep_stepDone, arm]
    rw [done, ← micros]
    exact stepDone_of_last last list
  case faults =>
    have failed (x : Arm) : (armFails q u .angleRange x).state = .fault ∧ (armFails q u .angleRange x).cause = .angleRange := ⟨rfl, rfl⟩
    have act : (q.arm u).state ≠ .stowed ∧ (q.arm u).state ≠ .fault := by rw [arm]; exact ⟨stowed, fault⟩
    rw [left_iff.2 ⟨inRange, bad⟩]
    cases met : angleCompletes u reading.val q with
    | false =>
      rw [handAngle_of_unmet present met, faultEvent_of_active present act, faultArm_armFails]
      exact .inl (failed _)
    | true =>
      rw [handAngle_arm_of_met present act met]
      split
      · exact .inl (failed _)
      · rw [armFaulted]
        split
        · exact .inl (failed _)
        · rename_i idle
          exact .inr ((stowed_or_fault idle).resolve_right (stepDone_ne_fault act.2))

/-! ## Samples of a switch (R120) -/

section
variable {si : Fin 8}

/-- A station with a switch as a sample leaves it (R120). -/
def afterSample (si : Fin 8) (y : SwitchInput) (s : State) : State := s.withInputs { s.inputs with
  switches := s.inputs.switches.set si { y with due := s.inputs.switches[si].due + 1 } }

theorem exec_switchSample {low : Bool} (run : dutiesRun s = true) (used : s.inputs.switches[si].fn ≠ .unused)
    (due : s.inputs.switches[si].due ≤ s.micros / 1000) : exec (.switchSample si low) s = .next
      (if (sampleSwitch low s.inputs.switches[si]).level = s.inputs.switches[si].level
        then afterSample si (sampleSwitch low s.inputs.switches[si]) s
        else handSwitch s.inputs.switches[si].fn (sampleSwitch low s.inputs.switches[si]).level
          (afterSample si (sampleSwitch low s.inputs.switches[si]) s)) := by
  have assigned : (s.inputs.switches[si].fn != .unused) = true := bne_iff_ne.2 used
  exact congrArg Host.Outcome.next (if_pos (by rw [run, assigned]; exact decide_eq_true due))

theorem sampleSwitch_same (x : SwitchInput) : sampleSwitch x.level x = { x with run := 0 } := if_pos rfl

theorem sampleSwitch_differing {x : SwitchInput} (short : x.run + 1 < 20) : sampleSwitch (!x.level) x = { x with run := x.run + 1 } := by
  rw [sampleSwitch, if_neg (by simp), if_neg (Nat.not_le.2 short)]

theorem sampleSwitch_taken {x : SwitchInput} (long : 20 ≤ x.run + 1) :
    sampleSwitch (!x.level) x = { x with level := !x.level, run := 0 } := by
  rw [sampleSwitch, if_neg (by simp), if_pos long]

end

/-! ## What a taken level reaches (R127, R130, R174, R177) -/

theorem pressDeflect_of_rest (resting : (s.arm u).state = .stowed ∨ (s.arm u).state = .yielding ∨ (s.arm u).state = .yielded
      ∨ (s.arm u).state = .retracting ∨ (s.arm u).state = .fault) :
    pressDeflect u s = s.withArm u { s.arm u with deflectOff := none } := by
  unfold pressDeflect
  rcases resting with h | h | h | h | h <;> rw [h]

theorem pressDeflect_of_joining (h : operating s = false) : pressDeflect u s = s.withArm u { s.arm u with deflectOff := none } := by
  unfold pressDeflect
  rw [h]
  cases (s.arm u).state <;> rfl

theorem pressDeflect_of_working (o : operating s = true)
    (working : (s.arm u).state = .deploying ∨ (s.arm u).state = .sweeping ∨ (s.arm u).state = .resuming) :
    pressDeflect u s = startYield u (s.withArm u { s.arm u with deflectOff := none }) := by
  unfold pressDeflect
  rw [o]
  rcases working with h | h | h <;> rw [h] <;> rfl

/-- A working arm yields at a deflect press, cutting its list (R127, R129, R130). -/
theorem pressDeflect_armTakes (o : operating s = true)
    (working : (s.arm u).state = .deploying ∨ (s.arm u).state = .sweeping ∨ (s.arm u).state = .resuming) :
    (pressDeflect u s).arm u = armTakes s u .yield { s.arm u with deflectOff := none } := by
  have noted := (KeepsAllButArm.withArm u s { s.arm u with deflectOff := none }).around
  rw [pressDeflect_of_working o working, startYield_armTakes, noted.armTakes, State.withArm_arm_same]

theorem pressDeflect_deflectOff (u : ArmUnit) (s : State) : ((pressDeflect u s).arm u).deflectOff = none := by
  have noted : ((s.withArm u { s.arm u with deflectOff := none }).arm u).deflectOff = none := by rw [State.withArm_arm_same]
  cases o : operating s with
  | false => rw [pressDeflect_of_joining o]; exact noted
  | true =>
    have yields (working : (s.arm u).state = .deploying ∨ (s.arm u).state = .sweeping ∨ (s.arm u).state = .resuming) :
        ((pressDeflect u s).arm u).deflectOff = none := by
      rw [pressDeflect_armTakes o working, (armTakes_readings ..).deflectOff]
    have rests (resting : (s.arm u).state = .stowed ∨ (s.arm u).state = .yielding ∨ (s.arm u).state = .yielded
        ∨ (s.arm u).state = .retracting ∨ (s.arm u).state = .fault) : ((pressDeflect u s).arm u).deflectOff = none := by
      rw [pressDeflect_of_rest resting]; exact noted
    cases state : (s.arm u).state with
    | deploying => exact yields (.inl state)
    | sweeping => exact yields (.inr (.inl state))
    | resuming => exact yields (.inr (.inr state))
    | stowed => exact rests (.inl state)
    | yielding => exact rests (.inr (.inl state))
    | yielded => exact rests (.inr (.inr (.inl state)))
    | retracting => exact rests (.inr (.inr (.inr (.inl state))))
    | fault => exact rests (.inr (.inr (.inr (.inr state))))

theorem pressReset_of_rest (h : s.console.pedal = 0) :
    pressReset s = requestEvent .clear [15, 3] (s.withConsole { s.console with resetHold := some (ms s) }) := if_pos h

theorem pressReset_of_pedal (h : s.console.pedal ≠ 0) : pressReset s = s := if_neg h

theorem handSwitch_deflect (u : ArmUnit) (on : Bool) (s : State) :
    handSwitch (deflectFn u) on s = if on then pressDeflect u s else releaseDeflect u s := by cases u <;> rfl

/-- No taken level moves an input. -/
theorem handSwitch_inputs (f : SwitchFn) (on : Bool) (s : State) : (handSwitch f on s).inputs = s.inputs := by
  have deflects (u : ArmUnit) : (if on then pressDeflect u s else releaseDeflect u s).inputs = s.inputs := by
    cases on
    · exact State.withArm_inputs ..
    · exact (pressDeflect_frame u s).inputs
  have presses : (pressReset s).inputs = s.inputs := by
    unfold pressReset
    split
    · exact (askClear_frame ..).inputs
    · rfl
  have buttons (p : Position) (r : ArmRequest) : (if (on && operating s) = true then pressArm p r s else s).inputs = s.inputs := by
    split <;> rfl
  cases f with
  | deflectA => exact deflects .a
  | deflectB => exact deflects .b
  | resetButton =>
    unfold handSwitch
    dsimp only
    split
    · split
      · exact presses
      · rfl
    · rfl
  | deploy p => exact buttons p .deploy
  | retract p => exact buttons p .retract
  | unused | mode1 | mode2 | dir | haltButton => rfl

theorem handSwitch_silent {f : SwitchFn} (on : Bool) (h : f = .mode1 ∨ f = .mode2 ∨ f = .dir ∨ f = .haltButton) :
    handSwitch f on s = s := by
  rcases h with rfl | rfl | rfl | rfl <;> rfl

/-- Settles O43: a level taken is handed on by `handSwitch`, by the function of its switch. -/
theorem switchSamplesAreTakenAndHandedOn : Obligations.SwitchSamplesAreTakenAndHandedOn := by
  intro s si station used due x sampled
  have run := dutiesRun_iff.2 station
  refine ⟨?same, fun short => ?short, fun long => ?long⟩
  case same =>
    rw [exec_switchSample run used due, sampleSwitch_same]
    exact congrArg Host.Outcome.next (if_pos rfl)
  case short =>
    rw [exec_switchSample run used due, sampleSwitch_differing short]
    exact congrArg Host.Outcome.next (if_pos rfl)
  case long =>
    obtain ⟨q, hq⟩ : ∃ q, q = ({ s with inputs := sampled (!x.level) 0 } : State) := ⟨_, rfl⟩
    have runs : exec (.switchSample si (!x.level)) s = .next (handSwitch x.fn (!x.level) q) := by
      rw [exec_switchSample run used due, sampleSwitch_taken long, hq]
      exact congrArg Host.Outcome.next (if_neg (Bool.not_eq_self x.level).1)
    have inputs : (handSwitch x.fn (!x.level) q).inputs = sampled (!x.level) 0 := by rw [handSwitch_inputs, hq]
    have now : ({ s with inputs := (handSwitch x.fn (!x.level) q).inputs } : State) = q := by rw [inputs, hq]
    have arm (u : ArmUnit) : q.arm u = s.arm u := by rw [hq]; cases u <;> rfl
    have pub : q.pub = s.pub := by rw [hq]
    have loader : q.loader = s.loader := by rw [hq]
    have console : q.console = s.console := by rw [hq]
    have present (u : ArmUnit) : armPresent q u = armPresent s u := by rw [hq]; cases u <;> rfl
    refine ⟨_, runs, inputs, fun silent => ?silent, fun off o => ?pressed, fun off j => ?joining, fun on => ?released⟩
    case silent => rw [handSwitch_silent _ silent, hq]
    case pressed =>
      rw [now]
      rw [off]
      have operates : operating q = true := operating_iff.2 (loader ▸ o)
      refine ⟨fun u deflect => ?_, fun p button => ?_, fun p button => ?_, fun button rest => ?_, fun button pedal => ?_⟩
      · have eq : handSwitch x.fn (!false) q = pressDeflect u q := by rw [deflect, handSwitch_deflect]; rfl
        rw [eq]
        refine ⟨pressDeflect_deflectOff u q, fun working => ?_, fun resting => ?_⟩
        · rw [← arm u] at working
          have moved := pressDeflect_armTakes operates working
          have yields := pressDeflect_of_working operates working
          refine ⟨(pressDeflect_frame u q).eq, ?_, by rw [moved, arm], fun p => armAnnounced_iff.2 ?_, ?_⟩
          · have events := (withArm_armMoves (s := q) (u := u) (x := { q.arm u with deflectOff := none }) (by rfl)).trans
              (startYield_armMoves u _)
            rw [yields, ← pub]
            exact ArmMoves.sameEvents events
          · rw [yields]
            have publishes : ArmPublishes q u := ⟨loader ▸ o, (present u).trans p⟩
            exact startYield_announced (publishes.of_frame (.withArm ..))
          · rw [moved]
            rcases armTakes_yield_state q u { q.arm u with deflectOff := none } with h | h | ⟨-, h | h⟩
            · exact .inl h
            · exact .inr (.inl h)
            · exact .inr (.inr (.inl h))
            · exact .inr (.inr (.inr h))
        · rw [← arm u] at resting
          rw [pressDeflect_of_rest resting, State.withArm_arm_same, arm]
      · have eq : handSwitch x.fn (!false) q = pressArm p .deploy q := by rw [button]; exact if_pos operates
        rw [eq, hq]
        rfl
      · have eq : handSwitch x.fn (!false) q = pressArm p .retract q := by rw [button]; exact if_pos operates
        rw [eq, hq]
        rfl
      · have eq : handSwitch x.fn (!false) q
            = requestEvent .clear [15, 3] (q.withConsole { q.console with resetHold := some (ms q) }) := by
          rw [button, ← pressReset_of_rest (by rw [console]; exact rest)]
          exact if_pos operates
        have asked := askedEvent_requestEvent (q.withConsole { q.console with resetHold := some (ms q) }) .clear [15, 3]
        have frame := requestEvent_frame .clear [15, 3] (q.withConsole { q.console with resetHold := some (ms q) })
        rw [eq]
        generalize requestEvent .clear [15, 3] (q.withConsole { q.console with resetHold := some (ms q) }) = t at asked frame
        rw [hq] at asked frame
        exact ⟨by rw [frame.inputs]; exact frame.eq, asked⟩
      · have eq : handSwitch x.fn (!false) q = q := by
          rw [button]
          exact (if_pos operates).trans (pressReset_of_pedal (by rw [console]; exact pedal))
        rw [eq]
    case joining =>
      rw [now]
      rw [off]
      have idle : operating q = false := by rw [operating, loader, j]; rfl
      have silent : ¬operating q = true := by rw [idle]; exact Bool.false_ne_true
      refine ⟨fun u deflect => ?_, fun p button => ?_, fun button => ?_⟩
      · rw [deflect, handSwitch_deflect, ← arm u]
        exact pressDeflect_of_joining idle
      · rcases button with button | button <;> rw [button] <;> exact if_neg silent
      · rw [button]
        exact if_neg silent
    case released =>
      rw [on]
      refine ⟨fun u deflect => ?_, fun p button => ?_, fun button => ?_⟩
      · rw [deflect, handSwitch_deflect]
        refine (State.withArm_arm_same ..).trans ?_
        rw [arm, hq]
        rfl
      · have same : handSwitch x.fn (!true) q = q := by rcases button with button | button <;> rw [button] <;> rfl
        rw [same, hq]
      · rw [button, hq]
        rfl

end

end Sys2Proof.Machine
end

section
/-! PROOFS. An arm's control period (spec/07, 7.2, 7.3, 7.6): what it reads, what its steps make of the arm, and its frame. -/

namespace Sys2Proof.Machine

section
variable {s t : State} {u : ArmUnit} {a b : Arm}

/-! ## What the steps of a period read beside the arm -/

theorem SameAround.travelRecord (h : SameAround s t) : travelRecord t = travelRecord s := by
  rcases s with ⟨_, _, _, _, _, _, ⟨_, _, _, _, _, _⟩⟩
  rcases t with ⟨_, _, _, _, _, _, ⟨_, _, _, _, _, _⟩⟩
  obtain ⟨rfl, rfl, rfl, rfl, rfl, rfl⟩ := h
  rfl

theorem SameAround.armEvaluated (h : SameAround s t) (u : ArmUnit) (expiry : Nat) (a : Arm) :
    armEvaluated t u expiry a = armEvaluated s u expiry a := by
  simp only [Machine.armEvaluated, h.armTakes, h.inputs, h.micros, isSafe_of_safe h.safe]

theorem SameAround.armAngled (h : SameAround s t) (u : ArmUnit) (a : Arm) : armAngled t u a = armAngled s u a := by
  rcases s with ⟨_, _, _, _, _, _, ⟨_, _, _, _, _, _⟩⟩
  rcases t with ⟨_, _, _, _, _, _, ⟨_, _, _, _, _, _⟩⟩
  obtain ⟨rfl, rfl, rfl, rfl, rfl, rfl⟩ := h
  cases u <;> rfl

theorem SameAround.armChecked (h : SameAround s t) (u : ArmUnit) (a : Arm) : armChecked t u a = armChecked s u a := by
  simp only [Machine.armChecked, h.armParams, h.stepDone, h.stepMet, h.travelRecord]

theorem SameAround.armBrushed (h : SameAround s t) (u : ArmUnit) (a : Arm) : armBrushed t u a = armBrushed s u a := by
  rcases s with ⟨_, _, _, _, _, _, ⟨_, _, _, _, _, _⟩⟩
  rcases t with ⟨_, _, _, _, _, _, ⟨_, _, _, _, _, _⟩⟩
  obtain ⟨rfl, rfl, rfl, rfl, rfl, rfl⟩ := h
  cases u <;> rfl

/-! ## What a period leaves of what it has read -/

/-- The inputs read, the reverse timer and the period timer. -/
structure ReadKept (a b : Arm) : Prop where
  inputs : b.inputs = a.inputs
  reverse : b.reverse = a.reverse
  due : b.due = a.due

theorem ReadKept.refl (a : Arm) : ReadKept a a := ⟨rfl, rfl, rfl⟩

theorem ReadKept.trans {c : Arm} (h : ReadKept a b) (k : ReadKept b c) : ReadKept a c :=
  ⟨k.inputs.trans h.inputs, k.reverse.trans h.reverse, k.due.trans h.due⟩

theorem ReadingsKept.read (h : ReadingsKept a b) : ReadKept a b := ⟨h.inputs, h.reverse, h.due⟩

theorem stepDone_read (s : State) (u : ArmUnit) (a : Arm) : ReadKept a (stepDone s u a) := by
  have run : ReadKept a (stepsRun s u (stepsLeft (armParams s u) (stepCounted a)) (stepCounted a)).1 :=
    (by constructor <;> rfl : ReadKept a (stepCounted a)).trans (stepsRun_readings ..).read
  unfold stepDone
  dsimp only
  split
  · exact run.trans (armEnds_readings ..).read
  · exact run

theorem armChecked_read (s : State) (u : ArmUnit) (a : Arm) : ReadKept a (armChecked s u a) := by
  have noted (r : StepRecord) : ReadKept a { a with record := r } := by constructor <;> rfl
  have done (b : Arm) (p : Prop) [Decidable p] (h : ReadKept a b) : ReadKept a (if p then stepDone s u b else b) := by
    split
    · exact h.trans (stepDone_read ..)
    · exact h
  unfold armChecked
  split
  · split
    · exact done _ _ (.refl a)
    · exact .refl a
    · exact done _ _ (noted _)
    · exact noted _
  · exact done _ _ (.refl a)
  · exact done _ _ (.refl a)
  all_goals exact .refl a

theorem armAngled_read (s : State) (u : ArmUnit) (a : Arm) : ReadKept a (armAngled s u a) := by
  unfold armAngled
  split
  · rw [armFails_eq]; constructor <;> rfl
  · exact .refl a

theorem armEvaluated_read (s : State) (u : ArmUnit) (expiry : Nat) (a : Arm) : ReadKept a (armEvaluated s u expiry a) := by
  have takes (l : ListName) : ReadKept a (armTakes s u l a) := (armTakes_readings ..).read
  have ready : ReadKept a { a with load := 100 } := by constructor <;> rfl
  unfold armEvaluated
  dsimp only
  split
  · split
    · exact ready.trans (armTakes_readings ..).read
    · exact .refl a
  iterate 3
    split
    · exact takes _
    · split
      · exact takes _
      · exact .refl a
  · split
    · exact takes _
    · split
      · exact takes _
      · exact .refl a
  · split
    · exact takes _
    · exact .refl a
  · exact .refl a
  · exact .refl a

theorem armBrushed_only (s : State) (u : ArmUnit) (a : Arm) : BrushOnly a (armBrushed s u a) := by
  unfold armBrushed
  dsimp only
  split <;> constructor <;> rfl

theorem armBrushed_read (s : State) (u : ArmUnit) (a : Arm) : ReadKept a (armBrushed s u a) :=
  have only := armBrushed_only s u a
  ⟨only.inputs, only.reverse, only.due⟩

/-! ## The arm after a period -/

/-- The arm once its inputs are read (R126, R127). -/
def readBy (s : State) (u : ArmUnit) (expiry : Nat) : Arm := { s.arm u with
  inputs := readArmInputs s (armParams s u)
  reverse := reverseTimer expiry (readArmInputs s (armParams s u)).direction (s.arm u).reverse
  due := some (expiry + 20) }

/-- The arm before the brush step of a period (R125). -/
def evaluatedBy (s : State) (u : ArmUnit) (expiry : Nat) : Arm :=
  armEvaluated s u expiry (armAngled s u (armChecked s u (readBy s u expiry)))

theorem readArm_arm (u : ArmUnit) (expiry : Nat) (s : State) : (readArm u expiry s).arm u = readBy s u expiry :=
  State.withArm_arm_same ..

/-- A period's state before its brush step. -/
def transited (u : ArmUnit) (expiry : Nat) (s : State) : State :=
  armTransition u expiry (checkAngle u (checkStep u (readArm u expiry s)))

theorem checked_frame (u : ArmUnit) (expiry : Nat) (s : State) : KeepsAllButArm u s (checkStep u (readArm u expiry s)) :=
  (readArm_frame ..).trans (checkStep_frame ..)

theorem angled_frame (u : ArmUnit) (expiry : Nat) (s : State) :
    KeepsAllButArm u s (checkAngle u (checkStep u (readArm u expiry s))) := (checked_frame ..).trans (checkAngle_frame ..)

theorem transited_frame (u : ArmUnit) (expiry : Nat) (s : State) : KeepsAllButArm u s (transited u expiry s) :=
  (angled_frame ..).trans (armTransition_frame ..)

theorem transited_arm (expiry : Nat) (p : armPresent s u = true) : (transited u expiry s).arm u = evaluatedBy s u expiry := by
  have read := (readArm_frame u expiry s).around
  have checked := checked_frame u expiry s
  rw [transited, armTransition_armEvaluated, (angled_frame u expiry s).around.armEvaluated,
    checkAngle_armAngled ((checked.armPresent_eq u).trans p), checked.around.armAngled, checkStep_armChecked, read.armChecked,
    readArm_arm]
  rfl

theorem armPeriod_of_operating (expiry : Nat) (o : s.loader.station = .operating) :
    armPeriod u expiry s = formBrush u (transited u expiry s) := if_pos (operating_iff.2 o)

/-- The six steps of a period make of the arm what the rules have (R125). -/
theorem armPeriod_arm (expiry : Nat) (o : s.loader.station = .operating) (p : armPresent s u = true) :
    (armPeriod u expiry s).arm u = armBrushed s u (evaluatedBy s u expiry) := by
  rw [armPeriod_of_operating expiry o, formBrush_armBrushed, (transited_frame u expiry s).around.armBrushed, transited_arm expiry p]

theorem evaluatedBy_read (s : State) (u : ArmUnit) (expiry : Nat) : ReadKept (readBy s u expiry) (evaluatedBy s u expiry) :=
  (armChecked_read ..).trans ((armAngled_read ..).trans (armEvaluated_read ..))

/-! ## The events and the frame of a period (R55, R125) -/

theorem checkStep_armMoves (u : ArmUnit) (s : State) : ArmMoves u s (checkStep u s) := by
  have completes (c : State) (b : Bool) (h : ArmMoves u s c) : ArmMoves u s (if b = true then completeStep u c else c) := by
    split
    · exact h.trans (completeStep_armMoves ..)
    · exact h
  unfold checkStep
  split
  · unfold checkDistance
    dsimp only
    split
    · exact completes s _ (.refl u s)
    all_goals exact completes _ _ (withArm_armMoves (by rfl))
  · exact completes s _ (.refl u s)
  · exact completes s _ (.refl u s)
  all_goals exact .refl u s

theorem armTransition_armMoves (u : ArmUnit) (expiry : Nat) (s : State) : ArmMoves u s (armTransition u expiry s) := by
  have ready : ArmMoves u s (s.withArm u { s.arm u with load := 100 }) := withArm_armMoves (by rfl)
  have working : ArmMoves u s (workingPeriod u expiry s) := by
    unfold workingPeriod
    split
    · exact startRetract_armMoves ..
    · split
      · exact startYield_armMoves ..
      · exact .refl u s
  unfold armTransition
  split
  case h_1 =>
    unfold stowedPeriod
    split
    · exact ready.trans (startDeploy_armMoves ..)
    · exact .refl u s
  case h_2 | h_3 | h_4 => exact working
  case h_5 | h_8 => exact .refl u s
  case h_6 =>
    unfold yieldedPeriod
    split
    · exact startRetract_armMoves ..
    · split
      · exact startResume_armMoves ..
      · exact .refl u s
  case h_7 =>
    split
    · exact startDeploy_armMoves ..
    · exact .refl u s

theorem checkAngle_armMoves (u : ArmUnit) (s : State) : ArmMoves u s (checkAngle u s) := by
  unfold checkAngle
  split
  · exact .refl u s
  · exact faultEvent_armMoves ..

theorem armPeriod_sameEvents (expiry : Nat) (o : s.loader.station = .operating) :
    SameEvents s.pub (armPeriod u expiry s).pub := by
  have read : ArmMoves u s (readArm u expiry s) := withArm_armMoves (by rfl)
  have moves := read.trans ((checkStep_armMoves u _).trans ((checkAngle_armMoves u _).trans ((armTransition_armMoves u expiry _).trans
    (formBrush_armMoves u _))))
  rw [armPeriod_of_operating expiry o]
  exact ArmMoves.sameEvents moves

/-- A wait step checked changes the state only with the arm announced. -/
theorem checkStep_announced (h : ArmPublishes s u) (moved : ((checkStep u s).arm u).state ≠ (s.arm u).state) :
    Announced (checkStep u s) (armTopic u) := by
  have completes (c : State) (b : Bool) (same : (c.arm u).state = (s.arm u).state) (frame : KeepsAllButArm u s c)
      (moved : ((if b = true then completeStep u c else c).arm u).state ≠ (s.arm u).state) :
      Announced (if b = true then completeStep u c else c) (armTopic u) := by
    split at moved
    · rename_i done
      rw [if_pos done]
      exact completeStep_announced (h.of_frame frame) (by rw [same]; exact moved)
    · exact absurd same moved
  have noted (mm : Nat) (moved : ((if (mm == 0 && distanceRecord s != .none) = true
        then completeStep u (s.withArm u { s.arm u with record := distanceRecord s })
        else s.withArm u { s.arm u with record := distanceRecord s }).arm u).state ≠ (s.arm u).state) :=
    completes (s.withArm u { s.arm u with record := distanceRecord s }) (mm == 0 && distanceRecord s != .none)
      (by rw [State.withArm_arm_same]) (.withArm ..) moved
  cases step : stepInProgress s u with
  | none => simp only [checkStep, step] at moved; exact absurd rfl moved
  | some st =>
    cases st with
    | valve | brush | waitAngle | waitTime => simp only [checkStep, step] at moved; exact absurd rfl moved
    | waitWater =>
      simp only [checkStep, step] at moved ⊢
      exact completes s _ rfl (.refl u s) moved
    | waitBrush =>
      simp only [checkStep, step] at moved ⊢
      exact completes s _ rfl (.refl u s) moved
    | waitDist mm =>
      simp only [checkStep, step] at moved ⊢
      cases record : (s.arm u).record with
      | distance start =>
        simp only [checkDistance, record] at moved ⊢
        exact completes s _ rfl (.refl u s) moved
      | none =>
        simp only [checkDistance, record] at moved ⊢
        exact noted mm moved
      | time start =>
        simp only [checkDistance, record] at moved ⊢
        exact noted mm moved

theorem checkAngle_announced (h : ArmPublishes s u) : checkAngle u s = s ∨ Announced (checkAngle u s) (armTopic u) := by
  unfold checkAngle
  split
  · exact .inl rfl
  · exact faultEvent_announced .angleRange h

theorem armTransition_announced (h : ArmPublishes s u) (expiry : Nat) :
    armTransition u expiry s = s ∨ Announced (armTransition u expiry s) (armTopic u) := by
  have working : workingPeriod u expiry s = s ∨ Announced (workingPeriod u expiry s) (armTopic u) := by
    unfold workingPeriod
    split
    · exact .inr (startRetract_announced h)
    · split
      · exact .inr (startYield_announced h)
      · exact .inl rfl
  unfold armTransition
  split
  case h_1 =>
    unfold stowedPeriod
    split
    · exact .inr (startDeploy_announced (h.of_frame (.withArm ..)))
    · exact .inl rfl
  case h_2 | h_3 | h_4 => exact working
  case h_5 | h_8 => exact .inl rfl
  case h_6 =>
    unfold yieldedPeriod
    split
    · exact .inr (startRetract_announced h)
    · split
      · exact .inr (startResume_announced h)
      · exact .inl rfl
  case h_7 =>
    split
    · exact .inr (startDeploy_announced h)
    · exact .inl rfl

/-- The last of a period's steps that changes the state announces the arm as the brush step finds it. -/
theorem transited_announced (expiry : Nat) (h : ArmPublishes s u)
    (moved : ((transited u expiry s).arm u).state ≠ (s.arm u).state) : Announced (transited u expiry s) (armTopic u) := by
  have readState : ((readArm u expiry s).arm u).state = (s.arm u).state := by rw [readArm_arm]; rfl
  unfold transited at moved ⊢
  rcases armTransition_announced (h.of_frame (angled_frame u expiry s)) expiry with stays | announced
  · rw [stays] at moved ⊢
    rcases checkAngle_announced (h.of_frame (checked_frame u expiry s)) with stays | announced
    · rw [stays] at moved ⊢
      exact checkStep_announced (h.of_frame (readArm_frame ..)) (by rw [readState]; exact moved)
    · exact announced
  · exact announced

/-! ## Arms with no list running -/

theorem armChecked_of_no_list (h : a.list = .none) : armChecked s u a = a := by
  rw [armChecked, stepsLeft_of_no_list _ h]
  rfl

theorem armAngled_of_inRange (h : angleInRange s.inputs u = true) : armAngled s u a = a := by
  rw [armAngled, h]
  exact if_neg fun k => by cases k.1

/-- What a period takes of an arm's inputs as its conditions (R126, R127). -/
def Retracts (i : ArmInputs) : Prop := i.heard = false ∨ i.mode ≠ .sweep ∨ i.request = .retract

/-- The yield condition at a period (R127). -/
def Yields (s : State) (u : ArmUnit) (expiry : Nat) (a : Arm) : Prop :=
  switchOn s.inputs (deflectFn u) = true ∨ ∃ start ∈ a.reverse.toList, start + 300 ≤ expiry

theorem armEvaluated_stowed {expiry : Nat} (stowed : a.state = .stowed) : armEvaluated s u expiry a =
    if a.inputs.heard = true ∧ a.inputs.mode = .sweep ∧ a.inputs.request = .deploy ∧ isSafe s = false
        ∧ angleInRange s.inputs u = true then armTakes s u .deploy { a with load := 100 } else a := by
  unfold armEvaluated
  rw [stowed]

theorem armEvaluated_working {expiry : Nat} (working : a.state = .deploying ∨ a.state = .sweeping ∨ a.state = .resuming) :
    (Retracts a.inputs → armEvaluated s u expiry a = armTakes s u .retract a)
      ∧ (¬Retracts a.inputs → Yields s u expiry a → armEvaluated s u expiry a = armTakes s u .yield a)
      ∧ (¬Retracts a.inputs → ¬Yields s u expiry a → armEvaluated s u expiry a = a) := by
  have split : armEvaluated s u expiry a = if a.inputs.heard = false ∨ a.inputs.mode ≠ .sweep ∨ a.inputs.request = .retract
      then armTakes s u .retract a
      else if switchOn s.inputs (deflectFn u) = true ∨ ∃ start ∈ a.reverse.toList, start + 300 ≤ expiry
        then armTakes s u .yield a else a := by
    unfold armEvaluated
    rcases working with h | h | h <;> rw [h]
  rw [split]
  exact ⟨fun r => if_pos r, fun r y => (if_neg r).trans (if_pos y), fun r y => (if_neg r).trans (if_neg y)⟩

theorem armEvaluated_yielded {expiry : Nat} (yielded : a.state = .yielded) :
    let clear := switchOn s.inputs (deflectFn u) = false ∧ (∃ off ∈ a.deflectOff.toList, off + 1000 ≤ s.micros / 1000)
      ∧ a.inputs.direction = some .forward
    (Retracts a.inputs → armEvaluated s u expiry a = armTakes s u .retract a)
      ∧ (¬Retracts a.inputs → clear → armEvaluated s u expiry a = armTakes s u .resume a)
      ∧ (¬Retracts a.inputs → ¬clear → armEvaluated s u expiry a = a) := by
  intro clear
  unfold armEvaluated
  rw [yielded]
  exact ⟨fun r => if_pos r, fun r y => (if_neg r).trans (if_pos y), fun r y => (if_neg r).trans (if_neg y)⟩

/-- A transition of an arm whose brush may turn always changes its state, so one that keeps it has taken none. -/
theorem armEvaluated_of_same_state {expiry : Nat} (turning : armTurns a = true)
    (same : (armEvaluated s u expiry a).state = a.state) : armEvaluated s u expiry a = a := by
  have working (h : a.state = .deploying ∨ a.state = .sweeping ∨ a.state = .resuming) : armEvaluated s u expiry a = a := by
    obtain ⟨retracts, yields, stays⟩ := armEvaluated_working (s := s) (u := u) (expiry := expiry) h
    by_cases r : Retracts a.inputs
    · rw [retracts r] at same
      rcases armTakes_retract_state s u a with ⟨k | k, -⟩ <;> rw [k] at same <;> rcases h with h | h | h <;> rw [h] at same <;> cases same
    · by_cases y : Yields s u expiry a
      · rw [yields r y] at same
        rcases armTakes_yield_state s u a with k | k | ⟨k, -⟩
        · rw [k] at same; rcases h with h | h | h <;> rw [h] at same <;> cases same
        · rw [k] at same; rcases h with h | h | h <;> rw [h] at same <;> cases same
        · exact absurd k r
      · exact stays r y
  have off {st : ArmState} (h : a.state = st) (still : [ArmState.deploying, .sweeping, .resuming, .yielding, .yielded].contains st = false) :
      armEvaluated s u expiry a = a := by
    rw [armTurns, h, still, Bool.and_false] at turning
    cases turning
  cases state : a.state with
  | deploying => exact working (.inl state)
  | sweeping => exact working (.inr (.inl state))
  | resuming => exact working (.inr (.inr state))
  | yielding => rw [armEvaluated, state]
  | yielded =>
    obtain ⟨retracts, resumes, stays⟩ := armEvaluated_yielded (s := s) (u := u) (expiry := expiry) state
    by_cases r : Retracts a.inputs
    · rw [retracts r, state] at same
      rcases armTakes_retract_state s u a with ⟨k | k, -⟩ <;> rw [k] at same <;> cases same
    · by_cases c : switchOn s.inputs (deflectFn u) = false ∧ (∃ off ∈ a.deflectOff.toList, off + 1000 ≤ s.micros / 1000)
          ∧ a.inputs.direction = some .forward
      · rw [resumes r c, state] at same
        rcases armTakes_resume_state s u a with k | k <;> rw [k] at same <;> cases same
      · exact stays r c
  | stowed => exact off state rfl
  | retracting => exact off state rfl
  | fault => exact off state rfl

/-! ## The period itself (R125) -/

theorem exec_armPeriodExpiry {due : Nat} (h : armDue s u due) : exec (.armPeriodExpiry u) s = .next (armPeriod u due s) := by
  obtain ⟨station, present, timer, passed⟩ := h
  have run : dutiesRun s = true := dutiesRun_iff.2 station
  have reached : due ≤ ms s := passed
  simp only [exec, execArmPeriodExpiry, timer, run, present, reached, decide_true, Bool.and_true, if_true]

theorem withArm_self (s : State) (u : ArmUnit) : s.withArm u (s.arm u) = s := by cases u <;> rfl

theorem mem_toList_iff {α : Type} {o : Option α} {p : α → Prop} : (∃ x ∈ o.toList, p x) ↔ ∃ x, o = some x ∧ p x := by
  simp only [Option.mem_toList]

/-- Settles O45: the six steps are `armPeriod_arm`, the frame `transited_announced`; an arm at rest goes by `armEvaluated`'s own
cases. -/
theorem armStateFollowsItsTable : Obligations.ArmStateFollowsItsTable := by
  intro s u due isDue o
  have present : armPresent s u = true := isDue.2.1
  have arm := armPeriod_arm due o present
  have read := (evaluatedBy_read s u due).trans (armBrushed_read s u (evaluatedBy s u due))
  have readIs : { s.arm u with
      inputs := ((armPeriod u due s).arm u).inputs
      reverse := ((armPeriod u due s).arm u).reverse
      due := some (due + 20) } = readBy s u due := by rw [arm, read.inputs, read.reverse]; rfl
  refine ⟨_, exec_armPeriodExpiry isDue, ?steps, fun rests inRange => ?table⟩
  case steps =>
    rw [readIs]
    refine ⟨(armPeriod_frame u due s).eq, armPeriod_sameEvents due o, arm, fun moved => ?_⟩
    have announced : Announced (transited u due s) (armTopic u) :=
      transited_announced due ⟨o, present⟩ (by rw [transited_arm due present]; exact moved)
    have before : (armPeriod u due s).withArm u (evaluatedBy s u due) = transited u due s := by
      rw [armPeriod_of_operating due o, formBrush, State.withArm_withArm, ← transited_arm due present, withArm_self]
    rw [armAnnounced_iff]
    exact before ▸ announced
  case table =>
    have only := armBrushed_only s u (evaluatedBy s u due)
    have evaluated : evaluatedBy s u due = armEvaluated s u due (readBy s u due) := by
      rw [evaluatedBy, armChecked_of_no_list (a := readBy s u due) rests, armAngled_of_inRange inRange]
    intro old new i deploys retracts yields clear
    have formed : new = armBrushed s u (evaluatedBy s u due) := arm
    rw [evaluated] at only formed
    have state : new.state = (armEvaluated s u due (readBy s u due)).state := by rw [formed, only.state]
    have load : new.load = (armEvaluated s u due (readBy s u due)).load := by rw [formed, only.load]
    have cause : new.cause = (armEvaluated s u due (readBy s u due)).cause := by rw [formed, only.cause]
    have levels : new.levels = (armEvaluated s u due (readBy s u due)).levels := by rw [formed, only.levels]
    have inputs : (readBy s u due).inputs = i := by rw [← read.inputs, ← arm]
    have reverse : (readBy s u due).reverse = new.reverse := by rw [← read.reverse, ← arm]
    have retracts_iff : Retracts (readBy s u due).inputs ↔ retracts := by rw [inputs]; exact .rfl
    have yields_iff : Yields s u due (readBy s u due) ↔ yields := by
      rw [Yields, reverse]
      exact or_congr_right mem_toList_iff
    rw [state, load, cause, levels]
    refine ⟨fun stowed => ?_, fun sweeping => ?_, fun yielded => ?_, fun fault => ?_⟩
    · have split := armEvaluated_stowed (s := s) (u := u) (expiry := due) (a := readBy s u due) stowed
      rw [inputs] at split
      refine ⟨fun ready => ?_, fun unready => ?_⟩
      · obtain ⟨heard, mode, request, free⟩ := ready
        rw [split, if_pos ⟨heard, mode, request, free, inRange⟩]
        exact ⟨armTakes_deploy_state .., (armTakes_readings ..).load⟩
      · rw [split, if_neg fun k => unready ⟨k.1, k.2.1, k.2.2.1, k.2.2.2.1⟩]
        exact ⟨stowed, rfl⟩
    · obtain ⟨retracting, yielding, stays⟩ := armEvaluated_working (s := s) (u := u) (expiry := due) (a := readBy s u due)
        (.inr (.inl sweeping))
      refine ⟨fun r => ?_, fun r y => ?_, fun r y => ?_, ?_⟩
      · rw [retracting (retracts_iff.2 r)]; exact armRetracts_state ..
      · rw [yielding (mt retracts_iff.1 r) (yields_iff.2 y)]
        rcases armTakes_yield_state s u (readBy s u due) with k | k | ⟨k, -⟩
        · exact .inl k
        · exact .inr k
        · exact absurd (retracts_iff.1 k) r
      · rw [stays (mt retracts_iff.1 r) (mt yields_iff.1 y)]; exact sweeping
      · by_cases r : Retracts (readBy s u due).inputs
        · rw [retracting r, (armTakes_readings ..).load]; rfl
        · by_cases y : Yields s u due (readBy s u due)
          · rw [yielding r y, (armTakes_readings ..).load]; rfl
          · rw [stays r y]; rfl
    · obtain ⟨retracting, resuming, stays⟩ := armEvaluated_yielded (s := s) (u := u) (expiry := due) (a := readBy s u due) yielded
      have clear_iff : (switchOn s.inputs (deflectFn u) = false
          ∧ (∃ off ∈ (readBy s u due).deflectOff.toList, off + 1000 ≤ s.micros / 1000)
          ∧ (readBy s u due).inputs.direction = some .forward) ↔ clear := by
        rw [inputs]
        exact and_congr_right fun _ => and_congr_left fun _ => mem_toList_iff
      refine ⟨fun r => ?_, fun r c => ?_, fun r c => ?_, ?_⟩
      · rw [retracting (retracts_iff.2 r)]; exact armRetracts_state ..
      · rw [resuming (mt retracts_iff.1 r) (clear_iff.2 c)]; exact armTakes_resume_state ..
      · rw [stays (mt retracts_iff.1 r) (mt clear_iff.1 c)]; exact yielded
      · by_cases r : Retracts (readBy s u due).inputs
        · rw [retracting r, (armTakes_readings ..).load]; rfl
        · by_cases c : clear
          · rw [resuming r (clear_iff.2 c), (armTakes_readings ..).load]; rfl
          · rw [stays r (mt clear_iff.1 c)]; rfl
    · have stays : armEvaluated s u due (readBy s u due) = readBy s u due := by
        have state : (readBy s u due).state = .fault := fault
        rw [armEvaluated, state]
      rw [stays]
      exact ⟨fault, rfl, rfl⟩

/-! ## The inputs read and the brush (R126, R127, R142, R143) -/

theorem readArmInputs_of_operator {p : ArmParams} {r : SlotRecord} (h : operatorRecord s = some r) :
    (readArmInputs s p).mode = modeOfCode (byteAt r.payload 0)
      ∧ (readArmInputs s p).request = armRequestOfCode (byteAt r.payload 4 / 4 ^ (3 - positionCode p.position) % 4) := by
  simp only [readArmInputs, h]
  exact ⟨trivial, rfl⟩

theorem readArmInputs_of_travel {p : ArmParams} {r : SlotRecord} (h : travelRecord s = some r) :
    (readArmInputs s p).vt = min 6000 (wordAt r.payload 0)
      ∧ (readArmInputs s p).direction = directionOfCode (byteAt r.payload 4) := by
  simp only [readArmInputs, h]
  exact ⟨rfl, rfl⟩

theorem readArmInputs_of_no_travel {p : ArmParams} (h : travelRecord s = none) :
    (readArmInputs s p).vt = 0 ∧ (readArmInputs s p).direction = none := by
  simp only [readArmInputs, h, and_self]

/-- The brush step on a brush that turns: its target, its trim moved by a channel that measures, and its PWM (R142, R143). -/
theorem armBrushed_of_turning (turns : armTurns a = true) : ∃ trim, armBrushed s u a = armAtTarget s u trim a
    ∧ -150 ≤ trim ∧ trim ≤ 150
    ∧ (fnState s (brushFn u) = none ∨ fnState s (brushFn u) = some .lost → trim = 0)
    ∧ ∀ c, fnState s (brushFn u) = some c → c ≠ .lost → trim = max (-150) (min 150 (a.trim + Int.tdiv
      (((armAtTarget s u trim a).target - fnValue s (brushFn u) : Int) * (armParams s u).kt) 256)) := by
  refine ⟨_, if_pos turns, ?_, ?_, fun unmeasured => ?_, fun c measured counts => ?_⟩
  · cases fnState s (brushFn u) with
    | none => exact (by decide : (-150 : Int) ≤ 0)
    | some c =>
      cases c with
      | lost => exact (by decide : (-150 : Int) ≤ 0)
      | tracking | oneMissing | stopped => exact Int.le_max_left ..
  · cases fnState s (brushFn u) with
    | none => exact (by decide : (0 : Int) ≤ 150)
    | some c =>
      cases c with
      | lost => exact (by decide : (0 : Int) ≤ 150)
      | tracking | oneMissing | stopped => exact Int.max_le.2 ⟨by decide, Int.min_le_left ..⟩
  · rcases unmeasured with h | h <;> rw [h]
  · rw [measured]
    cases c with
    | lost => exact absurd rfl counts
    | tracking | oneMissing | stopped => rfl

theorem armTurns_of_only (h : BrushOnly a b) : armTurns b = armTurns a := by rw [armTurns, armTurns, h.engaged, h.state]

/-- A period that leaves a turning arm with no list in its state has taken no transition: the brush step finds the arm as it was
read. -/
theorem evaluatedBy_of_same_state {expiry : Nat} (turning : armTurns (s.arm u) = true) (rests : (s.arm u).list = .none)
    (same : (evaluatedBy s u expiry).state = (s.arm u).state) : evaluatedBy s u expiry = readBy s u expiry := by
  have turns : armTurns (readBy s u expiry) = true := turning
  have fails_off : ¬(angleInRange s.inputs u = false ∧ (readBy s u expiry).state ≠ .stowed ∧ (readBy s u expiry).state ≠ .fault) := by
    intro angled
    have failed : (evaluatedBy s u expiry).state = .fault := by
      rw [evaluatedBy, armChecked_of_no_list (a := readBy s u expiry) rests, armAngled, if_pos angled, armFails_eq]
      rfl
    exact angled.2.2 (same.symm.trans failed)
  have evaluated : evaluatedBy s u expiry = armEvaluated s u expiry (readBy s u expiry) := by
    rw [evaluatedBy, armChecked_of_no_list (a := readBy s u expiry) rests, armAngled, if_neg fails_off]
  rw [evaluated] at same ⊢
  exact armEvaluated_of_same_state turns same

theorem armPeriod_of_joining (expiry : Nat) (j : s.loader.station = .joining) : armPeriod u expiry s = readArm u expiry s :=
  if_neg (by rw [operating_iff, j]; exact fun h => by cases h)

/-- Settles O44: in JOINING the period only reads; in OPERATING it ends with `armBrushed`. -/
theorem armPeriodReadsAndFormsTheBrush : Obligations.ArmPeriodReadsAndFormsTheBrush := by
  intro s u due isDue
  have present : armPresent s u = true := isDue.2.1
  have frame := armPeriod_frame u due s
  have read : ReadKept (readBy s u due) ((armPeriod u due s).arm u) := by
    rcases isDue.1 with j | o
    · rw [armPeriod_of_joining due j, readArm_arm]; exact .refl _
    · rw [armPeriod_arm due o present]; exact (evaluatedBy_read s u due).trans (armBrushed_read ..)
  refine ⟨_, exec_armPeriodExpiry isDue, fun w ne => frame.other w ne, frame.drive, frame.water, frame.console, frame.link,
    frame.picture, frame.inputs, frame.safe, frame.loader, frame.params, frame.duties, frame.micros, frame.pending, ?_⟩
  intro a p
  have inputs : a.inputs = readArmInputs s p := read.inputs
  have reverse : a.reverse = reverseTimer due a.inputs.direction (s.arm u).reverse := by rw [inputs]; exact read.reverse
  refine ⟨read.due, ?heard, fun r heard => ?operator, fun r heard => ?travel, fun silent => ?silent, fun back => ?back,
    fun forward => ?forward, fun j => ?joining, fun o => ?operating⟩
  case heard =>
    rw [inputs]
    exact Option.isSome_iff_exists
  case operator => rw [inputs]; exact readArmInputs_of_operator heard
  case travel => rw [inputs]; exact readArmInputs_of_travel heard
  case silent => rw [inputs]; exact readArmInputs_of_no_travel silent
  case back => rw [reverse, back]; rfl
  case forward => rw [reverse]; exact if_neg forward
  case joining =>
    have only : armPeriod u due s = readArm u due s := armPeriod_of_joining due j
    refine ⟨by rw [only, readArm, State.withArm_pub], ?_⟩
    have arm : a = readBy s u due := (congrArg (State.arm · u) only).trans (readArm_arm ..)
    rw [arm]
    rfl
  case operating =>
    have arm : a = armBrushed s u (evaluatedBy s u due) := armPeriod_arm due o present
    have turns : brushRuns a = armTurns (evaluatedBy s u due) := by
      rw [← armTurns_eq, arm, armTurns_of_only (armBrushed_only ..)]
    refine ⟨armPeriod_sameEvents due o, fun still => ?_, fun running => ?_⟩
    · have rest : a = armAtRest (evaluatedBy s u due) := arm.trans (if_neg (by rw [← turns, still]; exact Bool.false_ne_true))
      rw [rest]
      exact ⟨rfl, rfl, rfl⟩
    · obtain ⟨trim, formed, low, high, unmeasured, measured⟩ := armBrushed_of_turning (s := s) (u := u) (turns.symm.trans running)
      have atTarget : a = armAtTarget s u trim (evaluatedBy s u due) := arm.trans formed
      have moved : a.trim = trim := by rw [atTarget]; rfl
      have target : a.target = (armAtTarget s u trim (evaluatedBy s u due)).target := by rw [atTarget]
      refine ⟨?_, ?_, moved ▸ low, moved ▸ high, fun none => moved.trans (unmeasured none), fun c channel counts turning rests same => ?_⟩
      · rw [atTarget]; rfl
      · rw [moved, target]
        have pwm : a.pwm = (max 0 (min 1000 (((armAtTarget s u trim (evaluatedBy s u due)).target * p.kb / 1000 : Nat) + trim))).toNat := by
          rw [atTarget]; rfl
        rw [pwm]
        exact Int.toNat_of_nonneg (Int.le_max_left ..)
      · have state : (evaluatedBy s u due).state = (s.arm u).state := by rw [← same, arm, (armBrushed_only ..).state]
        have kept : (evaluatedBy s u due).trim = (s.arm u).trim := by rw [evaluatedBy_of_same_state turning rests state]; rfl
        refine moved.trans ((measured c channel counts).trans ?_)
        rw [kept, target]

end

end Sys2Proof.Machine
end

section
/-! PROOFS. A console period (spec/09): its readings, the SAFE entry of the HALT button, and its events in their order. -/

namespace Sys2Proof.Machine

section
variable {s t : State}

/-! ## Requests that keep a list in order -/

theorem requestEvent_inOrder {topic : Topic} {payload : List Byte} (o : s.loader.station = .operating) (h : inOrder s.pub.list) :
    inOrder (requestEvent topic payload s).pub.list := by
  simp only [requestEvent, o, enqueueEvent]
  split
  · exact insertNew_inOrder h
  · show inOrder (if _ then insertNew _ _ else _)
    split
    · exact insertNew_inOrder (offerFull_inOrder _ h)
    · exact offerFull_inOrder _ h

/-! ## The reset hold timer in a period (R170, R177) -/

/-- The hold timer has run its time with the button on (R177). -/
def holdEnds (s : State) : Prop :=
  switchOn s.inputs .resetButton = true ∧ ∃ start ∈ s.console.resetHold.toList, start + 2000 ≤ s.micros / 1000

theorem holdEnds_iff : (holdElapsed s && switchOn s.inputs .resetButton) = true ↔ holdEnds s := by
  have elapsed : holdElapsed s = true ↔ ∃ start ∈ s.console.resetHold.toList, start + 2000 ≤ s.micros / 1000 := by
    cases hold : s.console.resetHold with
    | none => simp [holdElapsed, hold]
    | some start =>
      rw [holdElapsed_iff hold]
      simp
  rw [Bool.and_eq_true_iff, elapsed]
  exact and_comm

theorem checkHold_of_ends (h : holdEnds s) : checkHold s = endHold s := if_pos (holdEnds_iff.2 h)

theorem checkHold_of_runs (h : ¬holdEnds s) : checkHold s = s := if_neg (mt holdEnds_iff.1 h)

/-- A hold timer that ends was running. -/
theorem resetHold_of_ends (h : holdEnds s) : s.console.resetHold ≠ none := by
  obtain ⟨-, start, running, -⟩ := h
  intro none
  rw [none] at running
  cases running

/-- The hold timer after the check (R177). -/
def holdAfter (s : State) : Option Nat :=
  if holdElapsed s && switchOn s.inputs .resetButton then none else s.console.resetHold

theorem holdAfter_of_ends (h : holdEnds s) : holdAfter s = none := if_pos (holdEnds_iff.2 h)

theorem holdAfter_of_runs (h : ¬holdEnds s) : holdAfter s = s.console.resetHold := if_neg (mt holdEnds_iff.1 h)

/-- The check of the hold timer moves that timer and asks for the CLEAR of the arms when it ends with the pedal at 0 (R177). -/
theorem checkHold_eq (s : State) :
    checkHold s = { s with console := { s.console with resetHold := holdAfter s }, pub := (checkHold s).pub }
      ∧ CyclicStays s.pub (checkHold s).pub
      ∧ (holdEnds s → s.console.pedal = 0 →
        (checkHold s).pub = (requestEvent .clear [15, 12] (s.withConsole { s.console with resetHold := none })).pub)
      ∧ (¬holdEnds s ∨ s.console.pedal ≠ 0 → (checkHold s).pub = s.pub) := by
  by_cases ends : holdEnds s
  · rw [checkHold_of_ends ends, holdAfter_of_ends ends]
    by_cases rest : s.console.pedal = 0
    · rw [endHold_of_rest rest]
      refine ⟨(requestEvent_frame ..).eq, requestEvent_cyclicStays (by decide) _
        (s.withConsole { s.console with resetHold := none }), fun _ _ => rfl, fun other => ?_⟩
      rcases other with runs | pedal
      · exact absurd ends runs
      · exact absurd rest pedal
    · rw [endHold_of_pedal rest]
      exact ⟨rfl, .refl _, fun _ k => absurd k rest, fun _ => rfl⟩
  · rw [checkHold_of_runs ends, holdAfter_of_runs ends]
    exact ⟨rfl, .refl _, fun k => absurd k ends, fun _ => rfl⟩

/-! ## SAFE entry beside the console's timer -/

/-- The reset hold timer is nothing to a SAFE entry. -/
theorem SafeEntered.withHold (h : SafeEntered s t) (hold : Option Nat) :
    SafeEntered (s.withConsole { s.console with resetHold := hold }) (t.withConsole { t.console with resetHold := hold }) where
  drive := h.drive
  armStays u := match u with | .a => h.armStays .a | .b => h.armStays .b
  armFaults u := match u with | .a => h.armFaults .a | .b => h.armFaults .b
  armAbsent u := match u with | .a => h.armAbsent .a | .b => h.armAbsent .b
  waterStays := h.waterStays
  waterStops := h.waterStops
  waterAbsent := h.waterAbsent
  console := congrArg (fun c : Console => { c with resetHold := hold }) h.console
  pace := h.pace
  urgency := h.urgency

/-! ## The parts of a period (R170–R174, R176) -/

/-- The station with the console's readings formed (R170–R174). -/
def consoleRead (due : Nat) (s : State) : State :=
  s.withConsole { consoleReadings s.params.console s.inputs s.console with due := some (due + 20) }

/-- The NOTICE of a mode newly invalid (R171). -/
def modeNoticed (due : Nat) (s : State) : State :=
  if (consoleRead due s).console.modeInvalid && !s.console.modeInvalid then requestNotice .modeInvalid 0 0 (consoleRead due s)
  else consoleRead due s

theorem consolePeriod_eq (due : Nat) (s : State) : consolePeriod due s =
    if operating s then checkHold (checkHalt (modeNoticed due s)) else modeNoticed due s := rfl

theorem modeNoticed_frame (due : Nat) (s : State) : KeepsAllButPub (consoleRead due s) (modeNoticed due s) := by
  unfold modeNoticed
  split
  · exact requestNotice_frame ..
  · exact .refl _

/-- The event asked for: the NOTICE when the mode is newly invalid, none otherwise (R171). -/
theorem modeNoticed_asks (due : Nat) (s : State) :
    ((switchOn s.inputs .mode1 && switchOn s.inputs .mode2) = true ∧ s.console.modeInvalid = false →
        AskedEvent s .notice [2, 0, 0] (modeNoticed due s).pub)
      ∧ (¬((switchOn s.inputs .mode1 && switchOn s.inputs .mode2) = true ∧ s.console.modeInvalid = false) →
        (modeNoticed due s).pub = s.pub)
      ∧ CyclicStays s.pub (modeNoticed due s).pub
      ∧ (s.loader.station = .operating → inOrder s.pub.list → inOrder (modeNoticed due s).pub.list) := by
  have condition : ((consoleRead due s).console.modeInvalid && !s.console.modeInvalid) = true
      ↔ (switchOn s.inputs .mode1 && switchOn s.inputs .mode2) = true ∧ s.console.modeInvalid = false := by
    rw [Bool.and_eq_true_iff, Bool.not_eq_true']
    exact .rfl
  by_cases newly : (switchOn s.inputs .mode1 && switchOn s.inputs .mode2) = true ∧ s.console.modeInvalid = false
  · have noticed : modeNoticed due s = requestEvent .notice [2, 0, 0] (consoleRead due s) := if_pos (condition.2 newly)
    rw [noticed]
    exact ⟨fun _ => askedEvent_requestEvent (consoleRead due s) .notice [2, 0, 0], fun old => absurd newly old,
      requestEvent_cyclicStays (by decide) _ (consoleRead due s), fun o h => requestEvent_inOrder (s := consoleRead due s) o h⟩
  · have silent : modeNoticed due s = consoleRead due s := if_neg (mt condition.1 newly)
    rw [silent]
    exact ⟨fun now => absurd now newly, fun _ => rfl, .refl _, fun _ h => h⟩

/-- A report moves of the console its claim alone (R68, R183). -/
theorem reportCause_console (c : Cause) (s : State) :
    (reportCause c s).console = { s.console with claim := (reportCause c s).console.claim } := by
  cases safe : isSafe s with
  | true =>
    obtain ⟨-, -, -, console⟩ := reportCause_dutiesStay c safe
    rw [console]
  | false => rw [(reportCause_safeEntered c safe).console]

/-- The HALT button's check (R176, R184, R185) on a station of its own duties: its frame, its cause, and the HALT of a cause newly
held. -/
structure HaltChecked (s t : State) : Prop where
  frame : KeepsAllButDuties s t
  console : t.console = { s.console with claim := t.console.claim }
  safe : haltPressed s = true → t.safe = { s.safe with causes := { s.safe.causes with haltButton := true } }
  enters : haltPressed s = true → isSafe s = false → SafeEntered s t
  stays : haltPressed s = true → isSafe s = true → t = { s with pub := t.pub, safe := t.safe }
  idle : haltPressed s = false → t = s
  asks : haltPressed s = true → s.safe.causes.haltButton = false → ∀ p : State, p.loader = s.loader → p.micros = s.micros →
    p.link = s.link → p.pub = s.pub → (p.loader.station = .operating → inOrder p.pub.list) →
    CyclicOnly (requestEvent .halt [0, 4] p).pub t.pub
  held : s.safe.causes.haltButton = true → t = s

theorem checkHalt_haltChecked (s : State) : HaltChecked s (checkHalt s) := by
  have pressed (h : haltPressed s = true) : checkHalt s = reportCause .haltButton s := if_pos h
  have idle (h : haltPressed s = false) : checkHalt s = s := if_neg (by rw [h]; exact Bool.false_ne_true)
  have old (h : s.safe.causes.haltButton = true) : reportCause .haltButton s = s := by
    unfold reportCause
    exact if_pos h
  constructor
  case frame =>
    unfold checkHalt
    split
    · exact reportCause_frame ..
    · exact .refl s
  case console =>
    unfold checkHalt
    split
    · exact reportCause_console ..
    · rfl
  case safe =>
    intro h
    rw [pressed h]
    cases held : s.safe.causes.haltButton with
    | true =>
      have same : ({ s.safe.causes with haltButton := true } : CauseSet) = s.safe.causes := by rw [← held]
      rw [old held, same]
    | false => exact reportCause_safe_of_new held
  case enters =>
    intro h free
    rw [pressed h]
    exact reportCause_safeEntered _ free
  case stays =>
    intro h safe
    rw [pressed h]
    rcases reportCause_cases .haltButton s with same | ⟨-, frame⟩ | ⟨free, -⟩
    · rw [same]
    · rw [frame.safe]
      exact frame.eq
    · rw [safe] at free
      cases free
  case idle => exact idle
  case asks =>
    intro h new p loader micros link pub ordered
    have entered := causeTaken_frame .haltButton s
    have asked : reportCause .haltButton s = requestEvent .halt [0, 4] (causeTaken .haltButton s) := reportCause_of_new new
    rw [pressed h, asked]
    exact requestEvent_cyclicOnly (entered.loader.trans loader.symm) (entered.micros.trans micros.symm) (entered.link.trans link.symm)
      (by decide) (pub ▸ causeTaken_cyclicOnly .haltButton s) ordered _
  case held =>
    intro h
    unfold checkHalt
    split
    · exact old h
    · rfl

theorem consoleMode_eq (one two : Bool) :
    consoleMode one two = if one = two then .park else if one = true then .transport else .sweep := by
  cases one <;> cases two <;> rfl

theorem exec_consolePeriodExpiry {due : Nat} (run : dutiesRun s = true) (carried : s.duties.console = true)
    (timer : s.console.due = some due) (passed : due ≤ s.micros / 1000) :
    exec .consolePeriodExpiry s = .next (consolePeriod due s) := by
  have reached : due ≤ ms s := passed
  simp only [exec, execConsolePeriodExpiry, timer, run, carried, reached, decide_true, Bool.and_true, if_true]

/-! ## The whole period -/

/-- What a period leaves of the station and makes of the console, in JOINING and in OPERATING. -/
structure ConsoleWorked (s : State) (due : Nat) (t : State) : Prop where
  frame : KeepsAllButDuties s t
  console : t.console = { (consoleRead due s).console with claim := t.console.claim, resetHold := t.console.resetHold }
  joining : s.loader.station = .joining →
    t = { s with console := t.console, pub := t.pub } ∧ t.console.resetHold = s.console.resetHold
  hold : s.loader.station = .operating → t.console.resetHold = holdAfter s
  safe : s.loader.station = .operating → haltPressed s = true →
    t.safe = { s.safe with causes := { s.safe.causes with haltButton := true } }
  enters : s.loader.station = .operating → haltPressed s = true → isSafe s = false →
    SafeEntered { s with console := { t.console with claim := s.console.claim } } t
  stays : s.loader.station = .operating → haltPressed s = true → isSafe s = true →
    t = { s with console := t.console, pub := t.pub, safe := t.safe }
  idle : s.loader.station = .operating → haltPressed s = false → t = { s with console := t.console, pub := t.pub }

theorem modeNoticed_eq (due : Nat) (s : State) :
    modeNoticed due s = { s with console := (consoleRead due s).console, pub := (modeNoticed due s).pub } := (modeNoticed_frame due s).eq

theorem holdEnds_congr (inputs : t.inputs = s.inputs) (micros : t.micros = s.micros) (hold : t.console.resetHold = s.console.resetHold) :
    holdEnds t ↔ holdEnds s := by
  rw [holdEnds, holdEnds, inputs, micros, hold]

theorem holdAfter_congr (inputs : t.inputs = s.inputs) (micros : t.micros = s.micros) (hold : t.console.resetHold = s.console.resetHold) :
    holdAfter t = holdAfter s := by
  have ends := holdEnds_congr inputs micros hold
  by_cases h : holdEnds s
  · rw [holdAfter_of_ends h, holdAfter_of_ends (ends.2 h)]
  · rw [holdAfter_of_runs h, holdAfter_of_runs (mt ends.1 h), hold]

theorem consolePeriod_worked (due : Nat) (station : s.loader.station = .joining ∨ s.loader.station = .operating) :
    ConsoleWorked s due (consolePeriod due s) := by
  obtain ⟨n, hn⟩ : ∃ n, n = modeNoticed due s := ⟨_, rfl⟩
  have noticed : n = { s with console := (consoleRead due s).console, pub := n.pub } := by rw [hn]; exact modeNoticed_eq due s
  have before : KeepsAllButDuties s n := by rw [noticed]; constructor <;> rfl
  have console : n.console = (consoleRead due s).console := by rw [noticed]
  have causes : n.safe = s.safe := by rw [noticed]
  have press : haltPressed n = haltPressed s := by rw [noticed]; rfl
  have safe : isSafe n = isSafe s := isSafe_of_safe causes
  rcases station with j | o
  · have period : consolePeriod due s = n := by
      rw [consolePeriod_eq, hn]
      exact if_neg (by rw [operating_iff, j]; exact fun h => by cases h)
    rw [period]
    refine ⟨before, by rw [console], fun _ => ⟨?_, by rw [console]; rfl⟩, ?_, ?_, ?_, ?_, ?_⟩
    · rw [console]; exact noticed
    all_goals
      intro o
      rw [j] at o
      cases o
  · have period : consolePeriod due s = checkHold (checkHalt n) := by
      rw [consolePeriod_eq, hn]
      exact if_pos (operating_iff.2 o)
    have checked := checkHalt_haltChecked n
    obtain ⟨h, hh⟩ : ∃ h, h = checkHalt n := ⟨_, rfl⟩
    rw [← hh] at checked
    have hconsole := checked.console
    obtain ⟨eq, stays, -, -⟩ := checkHold_eq h
    rw [period, ← hh]
    have ended : holdAfter h = holdAfter s := holdAfter_congr (checked.frame.inputs.trans before.inputs)
      (checked.frame.micros.trans before.micros) (by rw [hconsole, console]; rfl)
    rw [ended] at eq
    generalize checkHold h = t at eq stays
    have tconsole : t.console = { h.console with resetHold := holdAfter s } := by rw [eq]
    have tsafe : t.safe = h.safe := by rw [eq]
    have after : KeepsAllButDuties h t := by rw [eq]; constructor <;> rfl
    refine ⟨before.trans (checked.frame.trans after), ?_, ?_, fun _ => by rw [tconsole], fun _ p => ?_, fun _ p free => ?_,
      fun _ p safed => ?_, fun _ p => ?_⟩
    · rw [tconsole, hconsole, console]
    · intro j
      rw [o] at j
      cases j
    · rw [tsafe, checked.safe (press.trans p), causes]
    · have entered := checked.enters (press.trans p) (safe.trans free)
      have read : SafeEntered (consoleRead due s) h := by
        refine entered.of_source ?_ (by rw [causes]; rfl) ?_
        · rw [noticed]; rfl
        · obtain ⟨-, -, cyclic, -⟩ := modeNoticed_asks due s
          rw [hn]
          exact cyclic
      have held := (read.withHold (holdAfter s)).of_stays (r := t) (by rw [eq]; rfl) stays
      have source : { s with console := { t.console with claim := s.console.claim } }
          = (consoleRead due s).withConsole { (consoleRead due s).console with resetHold := holdAfter s } := by
        rw [tconsole, hconsole, console]
        rfl
      rw [source]
      exact held
    · have only := checked.stays (press.trans p) (safe.trans safed)
      rw [eq, only, noticed]
    · have only := checked.idle (press.trans p)
      rw [eq, only, noticed]

/-- The events of a period in their order (R171, R177, R185). -/
theorem consolePeriod_asks (due : Nat) (station : s.loader.station = .joining ∨ s.loader.station = .operating)
    (order : HeaderOrder s.pub.list) : ∃ p q r : Publication,
      (if (switchOn s.inputs .mode1 && switchOn s.inputs .mode2) = true ∧ s.console.modeInvalid = false
        then AskedEvent s .notice [2, 0, 0] p else p = s.pub)
      ∧ (if s.loader.station = .operating ∧ haltPressed s = true ∧ s.safe.causes.haltButton = false
        then AskedEvent { s with pub := p } .halt [0, 4] q else q = p)
      ∧ ((s.loader.station = .operating ∧ holdEnds s) ∧ (consoleRead due s).console.pedal = 0 →
        AskedEvent { s with pub := q } .clear [15, 12] r)
      ∧ (¬((s.loader.station = .operating ∧ holdEnds s) ∧ (consoleRead due s).console.pedal = 0) → r = q)
      ∧ SameEvents r (consolePeriod due s).pub := by
  obtain ⟨n, hn⟩ : ∃ n, n = modeNoticed due s := ⟨_, rfl⟩
  have noticed : n = { s with console := (consoleRead due s).console, pub := n.pub } := by rw [hn]; exact modeNoticed_eq due s
  obtain ⟨notices, silent, -, ordered⟩ := modeNoticed_asks due s
  rw [← hn] at notices silent ordered
  have first : if (switchOn s.inputs .mode1 && switchOn s.inputs .mode2) = true ∧ s.console.modeInvalid = false
      then AskedEvent s .notice [2, 0, 0] n.pub else n.pub = s.pub := by
    split
    · rename_i newly; exact notices newly
    · rename_i old; exact silent old
  rcases station with j | o
  · have never : ¬s.loader.station = .operating := by rw [j]; exact fun h => by cases h
    have period : consolePeriod due s = n := by
      rw [consolePeriod_eq, hn]
      exact if_neg (mt operating_iff.1 never)
    refine ⟨n.pub, n.pub, n.pub, first, ?_, fun k => absurd k.1.1 never, fun _ => rfl, by rw [period]; exact .refl _⟩
    rw [if_neg fun k => never k.1]
  · have period : consolePeriod due s = checkHold (checkHalt n) := by
      rw [consolePeriod_eq, hn]
      exact if_pos (operating_iff.2 o)
    have checked := checkHalt_haltChecked n
    obtain ⟨h, hh⟩ : ∃ h, h = checkHalt n := ⟨_, rfl⟩
    rw [← hh] at checked
    have press : haltPressed n = haltPressed s := by rw [noticed]; rfl
    have cause : n.safe.causes.haltButton = s.safe.causes.haltButton := by rw [noticed]
    have frame : KeepsAllButDuties s h := by
      have before : KeepsAllButDuties s n := by rw [noticed]; constructor <;> rfl
      exact before.trans checked.frame
    have second : ∃ q, (if s.loader.station = .operating ∧ haltPressed s = true ∧ s.safe.causes.haltButton = false
        then AskedEvent { s with pub := n.pub } .halt [0, 4] q else q = n.pub) ∧ CyclicOnly q h.pub ∧ inOrder q.list := by
      by_cases newly : haltPressed s = true ∧ s.safe.causes.haltButton = false
      · have only := checked.asks (press.trans newly.1) (cause.trans newly.2) { s with pub := n.pub } (by rw [noticed])
          (by rw [noticed]) (by rw [noticed]) rfl fun _ => ordered o order
        refine ⟨_, ?_, only, requestEvent_inOrder (s := { s with pub := n.pub }) o (ordered o order)⟩
        rw [if_pos ⟨o, newly⟩]
        exact askedEvent_requestEvent { s with pub := n.pub } .halt [0, 4]
      · have same : h = n := by
          cases p : haltPressed s with
          | false => exact checked.idle (press.trans p)
          | true =>
            cases c : s.safe.causes.haltButton with
            | true => exact checked.held (cause.trans c)
            | false => exact absurd ⟨p, c⟩ newly
        refine ⟨n.pub, ?_, same ▸ .refl _, ordered o order⟩
        rw [if_neg fun k => newly k.2]
    obtain ⟨q, asked, only, inorder⟩ := second
    have console : h.console.resetHold = s.console.resetHold ∧ h.console.pedal = (consoleRead due s).console.pedal := by
      rw [checked.console, noticed]
      exact ⟨rfl, rfl⟩
    have ends := holdEnds_congr frame.inputs frame.micros console.1
    obtain ⟨-, -, clears, keeps⟩ := checkHold_eq h
    rw [period, ← hh]
    by_cases cleared : holdEnds s ∧ (consoleRead due s).console.pedal = 0
    · refine ⟨n.pub, q, _, first, asked, fun _ => askedEvent_requestEvent { s with pub := q } .clear [15, 12],
        fun k => absurd ⟨⟨o, cleared.1⟩, cleared.2⟩ k, ?_⟩
      rw [clears (ends.2 cleared.1) (console.2.trans cleared.2)]
      have chained := requestEvent_cyclicOnly (s := { s with pub := q })
        (c := h.withConsole { h.console with resetHold := none }) (topic := .clear) frame.loader frame.micros frame.link (by decide)
        only (fun _ => inorder) [15, 12]
      exact chained.events
    · have same : (checkHold h).pub = h.pub := keeps (by
        by_cases e : holdEnds s
        · exact .inr fun k => cleared ⟨e, console.2.symm.trans k⟩
        · exact .inl (mt ends.1 e))
      exact ⟨n.pub, q, q, first, asked, fun k => absurd ⟨k.1.2, k.2⟩ cleared, fun _ => rfl, by rw [same]; exact only.events⟩

/-- Settles O51: the readings are `consoleRead`'s, the rest `consolePeriod_worked` and `consolePeriod_asks`. -/
theorem consolePeriodFormsTheReadings : Obligations.ConsolePeriodFormsTheReadings := by
  intro s due station carried timer passed order
  have worked := consolePeriod_worked due station
  obtain ⟨p, q, r, notice, halt, clears, keeps, same⟩ := consolePeriod_asks due station order
  refine ⟨_, exec_consolePeriodExpiry (dutiesRun_iff.2 station) carried timer passed, ?_⟩
  obtain ⟨t, ht⟩ : ∃ t, t = consolePeriod due s := ⟨_, rfl⟩
  rw [← ht] at worked same ⊢
  intro one two band c
  have console : c = { (consoleRead due s).console with claim := c.claim, resetHold := c.resetHold } := worked.console
  have pedal : c.pedal = (consoleRead due s).console.pedal := by rw [console]
  have invalid : c.modeInvalid = (one && two) := by rw [console]; rfl
  have mode : c.mode = consoleMode one two := by rw [console]; rfl
  refine ⟨by rw [console]; rfl, mode.trans (consoleMode_eq one two), invalid, by rw [console]; rfl, by rw [console]; rfl,
    by rw [console]; rfl, ?requests, by rw [console]; rfl, worked.joining, fun o => ⟨worked.safe o, worked.enters o, worked.stays o, worked.idle o⟩,
    worked.frame.params, worked.frame.duties, worked.frame.held, worked.frame.micros, worked.frame.pending, fun o => ?hold,
    ⟨p, q, r, by rw [invalid]; exact notice, halt, ?clear, same⟩, worked.frame.link, worked.frame.picture, worked.frame.inputs,
    worked.frame.loader⟩
  case requests =>
    rw [mode, console]
    rfl
  case hold =>
    rw [worked.hold o]
    by_cases ends : holdEnds s
    · exact (holdAfter_of_ends ends).trans (if_pos ends).symm
    · exact (holdAfter_of_runs ends).trans (if_neg ends).symm
  case clear =>
    have moved : s.console.resetHold ≠ c.resetHold ↔ s.loader.station = .operating ∧ holdEnds s := by
      rcases station with j | o
      · refine ⟨fun k => absurd (worked.joining j).2.symm k, fun k => ?_⟩
        rw [j] at k
        cases k.1
      · have hold : c.resetHold = holdAfter s := worked.hold o
        rw [hold]
        by_cases ends : holdEnds s
        · rw [holdAfter_of_ends ends]
          exact ⟨fun _ => ⟨o, ends⟩, fun _ => resetHold_of_ends ends⟩
        · rw [holdAfter_of_runs ends]
          exact ⟨fun k => absurd rfl k, fun k => absurd k.2 ends⟩
    split
    · rename_i k
      exact clears ⟨moved.1 k.1, pedal.symm.trans k.2⟩
    · rename_i k
      exact keeps fun ended => k ⟨moved.2 ended.1, pedal.trans ended.2⟩

end

end Sys2Proof.Machine
end

section
/-! PROOFS. What an accepted image holds (spec/11, 11.3): each field check as the ranges it stands for. -/

namespace Sys2Proof.Machine

section
variable {m : Image}

/-! ## The checks of an accepted image (R197–R199) -/

/-- Every field check of an accepted image holds. -/
theorem fieldChecks_of_accepted (h : failedCheckOf m = none) : ∀ c ∈ fieldChecks m, c.2 = true := by
  unfold failedCheckOf at h
  split at h
  · intro c mem
    have passes := List.find?_eq_none.1 (Option.map_eq_none_iff.1 h) c mem
    simpa using passes
  · cases h

theorem of_guarded {b c : Bool} (h : (!b || c) = true) (carried : b = true) : c = true := by
  rw [carried] at h
  exact h

theorem imgByte_lt (m : Image) (n : Nat) : imgByte m n < 256 := BitVec.isLt _

theorem bitRate_listed {code : Nat} (h : (bitRateOf code).isSome = true) : code = 1 ∨ code = 2 ∨ code = 3 := by
  unfold bitRateOf at h
  split at h
  · exact .inl rfl
  · exact .inr (.inl rfl)
  · exact .inr (.inr rfl)
  · cases h

theorem pulseFn_listed {code : Nat} (h : (pulseFnOf code).isSome = true) : code ≤ 5 := by
  unfold pulseFnOf at h
  split at h
  case h_7 => cases h
  all_goals decide

theorem analogFn_listed {code : Nat} (h : (analogFnOf code).isSome = true) : code ≤ 5 := by
  unfold analogFnOf at h
  split at h
  case h_7 => cases h
  all_goals decide

/-! ## Rules and periods (R2, R47) -/

theorem ruleInRange {r : Rule} (h : ruleOk r = true) (used : r.inUse = true) :
    (labelOfCode r.labelCode.toNat).isSome = true ∧ (destinationOfCode r.destCode.toNat).isSome = true
      ∧ r.slotNumber.toNat < 32 ∧ 10 ≤ ruleAgeLimit r ∧ ruleAgeLimit r ≤ 2550 := by
  have checked := of_guarded h used
  simp only [Bool.and_eq_true, decide_eq_true_eq] at checked
  obtain ⟨⟨⟨label, destination⟩, slot⟩, age⟩ := checked
  have bound := r.ageSteps.isLt
  unfold ruleAgeLimit
  exact ⟨label, destination, by omega, by omega, by omega⟩

theorem periodInRange (h : periodsOk m = true) {t : CyclicTopic} (published : publishes (imgDuties m) t = true) :
    1 ≤ (imgParams m).periods[cyclicIndex t] ∧ (imgParams m).periods[cyclicIndex t] ≤ 100 := by
  have period : (imgParams m).periods[cyclicIndex t] = imgByte m (196 + (cyclicIndex t).val) := by simp [imgParams]
  have checked := of_guarded (List.all_eq_true.1 h t (mem_cyclicTopics t)) published
  rw [period]
  simpa using checked

/-! ## Inputs: each function listed, read on this station, and given once (R107, R117, R120) -/

theorem differ_of_noRepeat {α : Type} [DecidableEq α] {n : Nat} {f : Fin n → α} {skip : α}
    (h : noRepeat (((List.finRange n).map f).filter (· != skip)) = true) (i j : Fin n) (ne : i ≠ j) (used : f i ≠ skip) :
    f i ≠ f j := by
  intro same
  rw [noRepeat_iff, List.filter_map] at h
  have mem (k : Fin n) (hk : f k ≠ skip) : k ∈ (List.finRange n).filter ((· != skip) ∘ f) :=
    List.mem_filter.2 ⟨List.mem_finRange k, bne_iff_ne.2 hk⟩
  exact related_of_pairwise (List.pairwise_map.1 h) Ne.symm (mem i used) (mem j (same ▸ used)) ne same

theorem pulse_read {d : DutySet} {f : PulseFn} (h : pulseReader d f = true) : (f = .wheel ∨ f = .engine → d.drive = true)
    ∧ (f = brushFn .a → d.armA = true) ∧ (f = brushFn .b → d.armB = true) ∧ (f = .flow → d.water = true) := by
  refine ⟨?_, ?_, ?_, ?_⟩
  · rintro (rfl | rfl) <;> exact h
  all_goals
    rintro rfl
    exact h

theorem analog_read {d : DutySet} {f : AnalogFn} (h : analogReader d f = true) :
    (f = .pedal ∨ f = .rateKnob → d.console = true) ∧ (f = angleFn .a → d.armA = true) ∧ (f = angleFn .b → d.armB = true)
      ∧ (f = .tank → d.water = true) := by
  refine ⟨?_, ?_, ?_, ?_⟩
  · rintro (rfl | rfl) <;> exact h
  all_goals
    rintro rfl
    exact h

theorem switch_read {d : DutySet} {f : SwitchFn} (h : switchReader d f = true) : (f = deflectFn .a → d.armA = true)
    ∧ (f = deflectFn .b → d.armB = true) ∧ (f ≠ .unused → f ≠ .deflectA → f ≠ .deflectB → d.console = true) := by
  refine ⟨?_, ?_, fun used notA notB => ?_⟩
  · rintro rfl
    exact h
  · rintro rfl
    exact h
  · cases f with
    | unused => exact absurd rfl used
    | deflectA => exact absurd rfl notA
    | deflectB => exact absurd rfl notB
    | mode1 | mode2 | dir | haltButton | resetButton | deploy | retract => exact h

/-! ## Lines (R198) -/

theorem linesDiffer_of_nodup {n : Nat} {l : List (Option (Fin n))} (h : (l.filterMap id).Nodup) : LinesDiffer l := by
  refine (List.pairwise_filterMap.1 h).imp fun {a b} apart => ?_
  cases a with
  | none => exact .inl rfl
  | some x => exact .inr fun same => apart x rfl x same.symm rfl

theorem namedLines_eq {n : Nat} (present : Bool) (l : List (Option (Fin n))) :
    namedLines present l = (if present = true then l else []).filterMap id := by
  cases present <;> rfl

/-! ## The blocks (R105, R122, R149, R209) -/

theorem constInRange {c : PulseConst} (h : constOk c = true) : ConstInRange c := by
  simpa [constOk, ConstInRange, and_assoc] using h

theorem driveInRange {p : DriveParams} (h : driveOk p = true) :
    p.transportMax ≤ 6000 ∧ p.sweepMax ≤ 6000 ∧ p.reverseMax ≤ 6000 ∧ p.creep ≤ 6000 ∧ p.agedCreep ≤ 6000 ∧ 100 ≤ p.engineMin
      ∧ p.engineMin ≤ 3000 ∧ (∀ a ∈ [p.aUp, p.aDown, p.aPrompt, p.aEmergency], 100 ≤ a ∧ a ≤ 5000) ∧ p.iLimit ≤ 500
      ∧ p.iMin ≤ p.iMax ∧ p.iMax ≤ 1000 ∧ ConstInRange p.wheelConst ∧ ConstInRange p.engineConst := by
  simp only [driveOk, Bool.and_eq_true, decide_eq_true_eq, List.all_eq_true] at h
  obtain ⟨⟨⟨⟨⟨⟨⟨⟨⟨⟨⟨⟨transport, sweep⟩, reverse⟩, creep⟩, aged⟩, low⟩, high⟩, rates⟩, limit⟩, least⟩, most⟩, wheel⟩, engine⟩ := h
  exact ⟨transport, sweep, reverse, creep, aged, low, high, rates, limit, least, most, constInRange wheel, constInRange engine⟩

/-- An argument of 13 bits (R209). -/
theorem stepOf_bounded {w : Nat} : (∀ units, stepOf w = some (.waitTime units) → units ≤ 8191)
    ∧ ∀ mm, stepOf w = some (.waitDist mm) → mm ≤ 8191 := by
  have arg : w % 8192 ≤ 8191 := Nat.le_of_lt_succ (Nat.mod_lt _ (by decide))
  refine ⟨fun units h => ?_, fun mm h => ?_⟩
  · unfold stepOf at h
    dsimp only at h
    split at h <;> cases h
    exact arg
  · unfold stepOf at h
    dsimp only at h
    split at h <;> cases h
    exact arg

theorem stepInRange {p : ArmParams} {w : Nat} {st : Step} (is : stepOf w = some st) (h : stepOk p (some st) = true) :
    StepInRange p st := by
  cases st with
  | valve line on => exact h
  | waitAngle below threshold => exact of_decide_eq_true (p := threshold ≤ 1000) h
  | waitTime units => exact stepOf_bounded.1 units is
  | waitDist mm => exact stepOf_bounded.2 mm is
  | brush | waitWater | waitBrush => trivial

/-- A list whose every entry is given loses none when the entries are taken out. -/
theorem length_filterMap_id {α : Type} {l : List (Option α)} (h : ∀ x ∈ l, x.isSome = true) :
    (l.filterMap id).length = l.length := by
  induction l with
  | nil => rfl
  | cons x rest ih =>
    obtain ⟨y, rfl⟩ := Option.isSome_iff_exists.1 (h x List.mem_cons_self)
    exact congrArg (· + 1) (ih fun z hz => h z (List.mem_cons_of_mem _ hz))

/-- One list of an arm: as long as its length field says, at most 16 steps, each in range (R198). -/
theorem listInRange {p : ArmParams} {n len : Nat} (h : listOk m p n len = true) :
    ((imgSteps m n len).filterMap id).length = len ∧ len ≤ 16
      ∧ ∀ st ∈ (imgSteps m n len).filterMap id, StepInRange p st := by
  obtain ⟨short, steps⟩ := Bool.and_eq_true_iff.1 h
  have short := of_decide_eq_true short
  have checked := List.all_eq_true.1 steps
  refine ⟨?_, short, fun st mem => ?_⟩
  · rw [length_filterMap_id fun x hx => ?_, imgSteps, List.length_map, List.length_range, Nat.min_eq_right short]
    cases x with
    | none => exact absurd (checked none hx) Bool.false_ne_true
    | some st => rfl
  · obtain ⟨x, hx, rfl⟩ := List.mem_filterMap.1 mem
    obtain ⟨i, -, is⟩ := List.mem_map.1 hx
    exact stepInRange is (checked _ hx)

theorem lineOrNone_iff {bound code : Nat} : lineOrNone bound code = true ↔ code < bound ∨ code = 255 := by
  simp [lineOrNone]

theorem armListsInRange {n l c : Nat} (h : listsOk m (imgArm m n l c) n l = true) :
    (∀ name, (listSteps (imgArm m n l c) name).length ≤ 16
        ∧ ∀ st ∈ listSteps (imgArm m n l c) name, StepInRange (imgArm m n l c) st)
      ∧ (imgArm m n l c).deploy.length = imgByte m (n + 28) ∧ (imgArm m n l c).retract.length = imgByte m (n + 29)
      ∧ (imgArm m n l c).yield.length = imgByte m (n + 30) ∧ (imgArm m n l c).resume.length = imgByte m (n + 31) := by
  simp only [listsOk, Bool.and_eq_true] at h
  obtain ⟨⟨⟨deploy, retract⟩, yield⟩, resume⟩ := h
  have bounded {k len : Nat} (ok : listOk m (imgArm m n l c) k len = true) :
      ((imgSteps m k len).filterMap id).length ≤ 16
        ∧ ∀ st ∈ (imgSteps m k len).filterMap id, StepInRange (imgArm m n l c) st := by
    obtain ⟨length, short, steps⟩ := listInRange ok
    exact ⟨Nat.le_trans (Nat.le_of_eq length) short, steps⟩
  refine ⟨fun name => ?_, (listInRange deploy).1, (listInRange retract).1, (listInRange yield).1, (listInRange resume).1⟩
  cases name with
  | none => exact ⟨Nat.zero_le _, fun st mem => nomatch mem⟩
  | deploy => exact bounded deploy
  | retract => exact bounded retract
  | yield => exact bounded yield
  | resume => exact bounded resume

theorem armBlockInRange {n l c : Nat} {fn : PulseFn} (h : armBlockOk m n fn (imgArm m n l c) = true) :
    let a := imgArm m n l c
    a.sweepWidth ≤ 3000 ∧ a.yieldWidth ≤ 3000 ∧ a.baseRpm ≤ a.maxRpm ∧ a.maxRpm ≤ 3000 ∧ a.slope ≤ 1000 ∧ a.kb ≤ 10000
      ∧ a.kt ≤ 255 ∧ 1 ≤ a.stepTimeout ∧ a.stepTimeout ≤ 255 ∧ a.stowLow ≤ a.stowHigh ∧ a.stowHigh ≤ 1000
      ∧ a.moveCeiling ≤ 6000 ∧ a.yieldCeiling ≤ 6000 ∧ imgByte m n ≤ 3 ∧ (a.lines[0]).isSome = true
      ∧ (∀ i < 4, imgByte m (n + 24 + i) < 16 ∨ imgByte m (n + 24 + i) = 255)
      ∧ ((pulseFns m).contains fn = true → ConstInRange a.brushConst) := by
  simp only [armBlockOk, Bool.and_eq_true, decide_eq_true_eq, List.all_eq_true, List.mem_range, lineOrNone_iff] at h
  obtain ⟨⟨⟨⟨⟨⟨⟨⟨⟨⟨⟨⟨⟨⟨position, sweep⟩, yield⟩, base⟩, most⟩, slope⟩, kb⟩, timeout⟩, stow⟩, stowHigh⟩, move⟩, yields⟩, first⟩, lines⟩,
    const⟩ := h
  exact ⟨sweep, yield, base, most, slope, kb, Nat.le_of_lt_succ (imgByte_lt ..), timeout, Nat.le_of_lt_succ (imgByte_lt ..), stow,
    stowHigh, move, yields, position, first, lines, fun given => constInRange (of_guarded const given)⟩

/-- A spray valve that is fitted: tied to ALWAYS or to an arm of a station 0–14 (R149, R209). -/
theorem sprayInRange {i : Nat} (h : sprayOk m i = true) :
    (imgByte m (336 + 2 * i) < 16 ∨ imgByte m (336 + 2 * i) = 255)
      ∧ ((imgSpray m i).line ≠ none → (imgSpray m i).tie = .always
        ∨ ∃ station u, (imgSpray m i).tie = .arm station u ∧ station.toNat = imgByte m (337 + 2 * i) / 16
          ∧ station ≠ 15 ∧ imgByte m (337 + 2 * i) % 16 = match u with | .a => 0 | .b => 1) := by
  simp only [sprayOk, Bool.and_eq_true, Bool.or_eq_true, lineOrNone_iff, decide_eq_true_eq, beq_iff_eq] at h
  obtain ⟨line, tie⟩ := h
  refine ⟨line, fun fitted => ?_⟩
  have named : imgByte m (336 + 2 * i) < 16 := by
    refine Classical.byContradiction fun none => ?_
    exact fitted (dif_neg none)
  by_cases always : imgByte m (337 + 2 * i) / 16 = 15
  · exact .inl (if_pos always)
  · have unit : imgByte m (337 + 2 * i) % 16 ≤ 1 := by omega
    have small : imgByte m (337 + 2 * i) / 16 < 16 := by
      have := imgByte_lt m (337 + 2 * i)
      omega
    have station : (BitVec.ofNat 4 (imgByte m (337 + 2 * i) / 16)).toNat = imgByte m (337 + 2 * i) / 16 := by
      rw [BitVec.toNat_ofNat]
      exact Nat.mod_eq_of_lt small
    refine .inr ⟨_, unitOf (imgByte m (337 + 2 * i) % 16), if_neg always, station, fun is => always ?_, ?_⟩
    · rw [← station, is]
      rfl
    · by_cases zero : imgByte m (337 + 2 * i) % 16 = 0
      · rw [zero]; rfl
      · have one : imgByte m (337 + 2 * i) % 16 = 1 := by omega
        rw [one]; rfl

theorem contains_iff {α : Type} [DecidableEq α] {n : Nat} {f : Fin n → α} {x : α} :
    ((List.finRange n).map f).contains x = true ↔ ∃ i, f i = x := by
  rw [List.contains_iff_mem, List.mem_map]
  exact ⟨fun ⟨i, _, h⟩ => ⟨i, h⟩, fun ⟨i, h⟩ => ⟨i, List.mem_finRange i, h⟩⟩

/-- An arm the station carries, whole: its block, its lines and its lists in range (R122, R198, R209). -/
theorem armInRange {n l c : Nat} {fn : PulseFn} {angle : AnalogFn} (block : armBlockOk m n fn (imgArm m n l c) = true)
    (lists : listsOk m (imgArm m n l c) n l = true) (needs : ((analogFns m).contains angle && (imgArm m n l c).brushLine.isSome) = true) :
    let a := imgArm m n l c
    a.sweepWidth ≤ 3000 ∧ a.yieldWidth ≤ 3000 ∧ a.baseRpm ≤ a.maxRpm ∧ a.maxRpm ≤ 3000 ∧ a.slope ≤ 1000 ∧ a.kb ≤ 10000
      ∧ a.kt ≤ 255 ∧ 1 ≤ a.stepTimeout ∧ a.stepTimeout ≤ 255 ∧ a.stowLow ≤ a.stowHigh ∧ a.stowHigh ≤ 1000
      ∧ a.moveCeiling ≤ 6000 ∧ a.yieldCeiling ≤ 6000
      ∧ imgByte m n ≤ 3 ∧ a.brushLine.isSome = true ∧ (a.lines[0]).isSome = true
      ∧ (∀ i < 4, imgByte m (n + 24 + i) < 16 ∨ imgByte m (n + 24 + i) = 255)
      ∧ (∃ i, imgAnalogFn m i = angle) ∧ ((∃ i, imgPulseFn m i = fn) → ConstInRange a.brushConst)
      ∧ (∀ name, (listSteps a name).length ≤ 16 ∧ ∀ st ∈ listSteps a name, StepInRange a st)
      ∧ a.deploy.length = imgByte m (n + 28) ∧ a.retract.length = imgByte m (n + 29)
      ∧ a.yield.length = imgByte m (n + 30) ∧ a.resume.length = imgByte m (n + 31) := by
  obtain ⟨sweep, yield, base, most, slope, kb, kt, timeout, timeoutMost, stow, stowHigh, move, yields, position, first, lines, const⟩ :=
    armBlockInRange block
  obtain ⟨given, brush⟩ := Bool.and_eq_true_iff.1 needs
  exact ⟨sweep, yield, base, most, slope, kb, kt, timeout, timeoutMost, stow, stowHigh, move, yields, position, brush, first, lines,
    contains_iff.1 given, fun assigned => const (contains_iff.2 assigned), armListsInRange lists⟩

/-- Settles O7: each field check, as the ranges it stands for. -/
theorem acceptedImageIsInRange : Obligations.AcceptedImageIsInRange := by
  intro image accepted
  have checks := fieldChecks_of_accepted accepted
  simp only [fieldChecks, List.forall_mem_cons] at checks
  obtain ⟨version, rate, dutySet, rules, periods, io, drive, water, console, arm, steps, hold, -⟩ := checks
  simp only [ioOk, Bool.and_eq_true] at io
  obtain ⟨⟨⟨functions, valves⟩, pwms⟩, needs⟩ := io
  simp only [functionsOk, Bool.and_eq_true] at functions
  obtain ⟨⟨⟨⟨⟨⟨⟨pulseListed, analogListed⟩, pulseRead⟩, analogRead⟩, switchRead⟩, pulseOnce⟩, analogOnce⟩, switchOnce⟩ := functions
  simp only [needsMet, Bool.and_eq_true] at needs
  obtain ⟨⟨⟨driveNeeds, armANeeds⟩, armBNeeds⟩, waterNeeds⟩ := needs
  simp only [armOk, Bool.and_eq_true] at arm
  obtain ⟨⟨armA, armB⟩, positions⟩ := arm
  simp only [stepListsOk, Bool.and_eq_true] at steps
  obtain ⟨listsA, listsB⟩ := steps
  have pulses (i : Fin 6) := pulse_read (List.all_eq_true.1 pulseRead _ (List.mem_map.2 ⟨i, List.mem_finRange i, rfl⟩))
  have analogs (i : Fin 4) := analog_read (List.all_eq_true.1 analogRead _ (List.mem_map.2 ⟨i, List.mem_finRange i, rfl⟩))
  have switches (i : Fin 8) := switch_read (List.all_eq_true.1 switchRead _ (List.mem_map.2 ⟨i, List.mem_finRange i, rfl⟩))
  intro p d pulse analog switch arms
  refine ⟨⟨eq_of_beq version, bitRate_listed rate, of_decide_eq_true dutySet⟩, fun i used => ?rule, fun t published => periodInRange periods published,
    ⟨fun i => pulseFn_listed (List.all_eq_true.1 pulseListed i (List.mem_finRange i)),
      fun i => analogFn_listed (List.all_eq_true.1 analogListed i (List.mem_finRange i))⟩,
    ⟨differ_of_noRepeat pulseOnce, differ_of_noRepeat analogOnce, differ_of_noRepeat switchOnce⟩, fun i => ?pulse, fun i => ?analog,
    fun i => ?switch, ?valves, ?pwms, fun carried => ?drive, fun u carried => ?arm, fun a b same => ?positions, fun carried => ?water,
    fun carried => ?console, fun i => ?hold⟩
  case rule =>
    exact ruleInRange (List.all_eq_true.1 rules _ (Vector.mem_toList_iff.2 (Vector.getElem_mem i.isLt))) used
  case pulse =>
    obtain ⟨driven, a, b, flow⟩ := pulses i
    exact ⟨driven, (fun | .a => a | .b => b), flow⟩
  case analog =>
    obtain ⟨operator, a, b, tank⟩ := analogs i
    exact ⟨operator, (fun | .a => a | .b => b), tank⟩
  case switch =>
    obtain ⟨a, b, others⟩ := switches i
    exact ⟨(fun | .a => a | .b => b), others⟩
  case valves =>
    refine linesDiffer_of_nodup ?_
    have nodup := (noRepeat_iff _).1 valves
    simp only [valveRoles, namedLines_eq, ← List.filterMap_append] at nodup
    exact nodup
  case pwms =>
    refine linesDiffer_of_nodup ?_
    have nodup := (noRepeat_iff _).1 pwms
    simp only [pwmRoles, namedLines_eq, ← List.filterMap_append] at nodup
    exact nodup
  case drive =>
    obtain ⟨transport, sweep, reverse, creep, aged, low, high, rates, limit, least, most, wheelConst, engineConst⟩ :=
      driveInRange (of_guarded drive carried)
    have given := of_guarded driveNeeds carried
    simp only [Bool.and_eq_true] at given
    obtain ⟨⟨⟨⟨wheel, engine⟩, forward⟩, backward⟩, brake⟩ := given
    exact ⟨transport, sweep, reverse, creep, aged, low, high, rates, Nat.le_of_lt_succ (imgByte_lt ..), Nat.le_of_lt_succ (imgByte_lt ..),
      limit, least, most, forward, backward, brake, contains_iff.1 wheel, contains_iff.1 engine, wheelConst, engineConst⟩
  case arm =>
    cases u with
    | a => exact armInRange (of_guarded armA carried) (of_guarded listsA carried) (of_guarded armANeeds carried)
    | b => exact armInRange (of_guarded armB carried) (of_guarded listsB carried) (of_guarded armBNeeds carried)
  case positions =>
    have a' : (imgDuties image).armA = true := a
    have b' : (imgDuties image).armB = true := b
    have same' : ((imgParams image).armA.position == (imgParams image).armB.position) = true := beq_iff_eq.2 same
    rw [a', b', same'] at positions
    cases positions
  case water =>
    have given := of_guarded waterNeeds carried
    obtain ⟨tank, pump⟩ := Bool.and_eq_true_iff.1 given
    have checked := of_guarded water carried
    simp only [waterOk, Bool.and_eq_true, decide_eq_true_eq, List.all_eq_true, List.mem_range] at checked
    obtain ⟨⟨⟨⟨⟨⟨⟨⟨⟨rateMost, flowLeast⟩, flowMost⟩, spray⟩, kw⟩, low⟩, empty⟩, dry⟩, sprays⟩, const⟩ := checked
    refine ⟨rateMost, flowLeast, flowMost, spray, Nat.le_of_lt_succ (imgByte_lt ..), kw, Nat.le_of_lt_succ (imgByte_lt ..), empty, low, dry,
      pump, contains_iff.1 tank, fun assigned => constInRange (of_guarded const (contains_iff.2 assigned)), fun i => ?_⟩
    have fitted : p.water.sprays[i] = imgSpray image i.val := by simp [p, imgParams, imgWater]
    rw [fitted]
    exact sprayInRange (sprays i.val i.isLt)
  case console =>
    have checked := of_guarded console carried
    simp only [consoleOk, Bool.and_eq_true, decide_eq_true_eq, lineOrNone_iff] at checked
    obtain ⟨⟨⟨band, rateMost⟩, closed⟩, lamp⟩ := checked
    exact ⟨band, rateMost, closed, lamp⟩
  case hold =>
    exact of_decide_eq_true (List.all_eq_true.1 hold _ (Vector.mem_toList_iff.2 (Vector.getElem_mem i.isLt)))

end

end Sys2Proof.Machine
end

section
/-! PROOFS. The entry to JOINING (spec/11, 11.5): what it makes of the station, and the notices of the starts. -/

namespace Sys2Proof.Machine

section
variable {s t j q : State} {u : ArmUnit}

/-! ## Notices asked for in JOINING (R59) -/

/-- The notices deferred since a state, in the order asked (R59). -/
def noticesOf (j : State) (l : List (List Byte)) : List TxEntry := l.zipIdx.map fun x =>
  { builtEvent j .notice x.1 with seq := j.pub.nextSeq[topicIndex .notice] + BitVec.ofNat 8 x.2 }

/-- A station in which some notices have been asked for since a state. -/
structure NoticesAsked (j : State) (l : List (List Byte)) (q : State) : Prop where
  loader : q.loader = j.loader
  micros : q.micros = j.micros
  list : q.pub.list = j.pub.list
  deferred : j.pub.deferred = [] → l.length ≤ 4 → q.pub.deferred = noticesOf j l
    ∧ q.pub.nextSeq[topicIndex .notice] = j.pub.nextSeq[topicIndex .notice] + BitVec.ofNat 8 l.length

theorem NoticesAsked.none (j : State) : NoticesAsked j [] j :=
  ⟨rfl, rfl, rfl, fun none _ => ⟨none, (BitVec.add_zero _).symm⟩⟩

theorem NoticesAsked.keep {l : List (List Byte)} (h : NoticesAsked j l q) (loader : t.loader = q.loader) (micros : t.micros = q.micros)
    (pub : t.pub = q.pub) : NoticesAsked j l t :=
  ⟨loader.trans h.loader, micros.trans h.micros, pub ▸ h.list, pub ▸ h.deferred⟩

theorem noticesOf_append (j : State) (l : List (List Byte)) (x : List Byte) : noticesOf j (l ++ [x]) = noticesOf j l ++
    [{ builtEvent j .notice x with seq := j.pub.nextSeq[topicIndex .notice] + BitVec.ofNat 8 l.length }] := by
  rw [noticesOf, List.zipIdx_append, List.map_append, Nat.zero_add]
  rfl

/-- In JOINING a request leaves the list alone (R59). -/
theorem requestEvent_joining_list {topic : Topic} {payload : List Byte} (station : s.loader.station = .joining) :
    (requestEvent topic payload s).pub.list = s.pub.list := by
  simp only [requestEvent, station, deferEvent]
  split <;> rfl

theorem NoticesAsked.ask {l : List (List Byte)} (h : NoticesAsked j l q) (station : j.loader.station = .joining) (x : List Byte) :
    NoticesAsked j (l ++ [x]) (requestEvent .notice x q) := by
  have frame := requestEvent_frame .notice x q
  have joining : q.loader.station = .joining := by rw [h.loader]; exact station
  refine ⟨frame.loader.trans h.loader, frame.micros.trans h.micros, (requestEvent_joining_list joining).trans h.list,
    fun none short => ?_⟩
  rw [List.length_append, List.length_singleton] at short
  obtain ⟨deferred, number⟩ := h.deferred none (Nat.le_of_succ_le short)
  have free : q.pub.deferred.length < 4 := by
    rw [deferred, noticesOf, List.length_map, List.length_zipIdx]
    exact short
  have entry : eventEntry q .notice x
      = { builtEvent j .notice x with seq := j.pub.nextSeq[topicIndex .notice] + BitVec.ofNat 8 l.length } := by
    rw [← number, builtEvent, ← h.loader, ← h.micros]
    rfl
  rw [requestEvent_deferred joining free]
  refine ⟨?_, ?_⟩
  · rw [noticesOf_append, ← entry, ← deferred]
  · refine (Vector.getElem_set_self ..).trans ?_
    have next : nextNumber q.pub .notice = j.pub.nextSeq[topicIndex .notice] + BitVec.ofNat 8 l.length := number
    rw [next, List.length_append, List.length_singleton, BitVec.add_assoc, BitVec.ofNat_add]
    rfl

/-! ## The notices of the starts (R124, R155, R172, R201) -/

/-- A duty absent starts nothing and asks for nothing. -/
theorem NoticesAsked.whenPresent {l : List (List Byte)} {x : List Byte} {c : Prop} [Decidable c] {present : Bool} {f : State → State}
    (h : NoticesAsked j l q) (starts : NoticesAsked j (l ++ if c then [x] else []) (f q)) :
    NoticesAsked j (l ++ if present = true ∧ c then [x] else []) (whenPresent present f q) := by
  cases present with
  | true =>
    simp only [true_and]
    exact starts
  | false =>
    rw [if_neg fun asks => Bool.false_ne_true asks.1, List.append_nil]
    exact h

/-- A start that asks for one notice or for none. -/
theorem NoticesAsked.askIf {l : List (List Byte)} (h : NoticesAsked j l q) (station : j.loader.station = .joining) (c : Prop)
    [Decidable c] (x : List Byte) : NoticesAsked j (l ++ if c then [x] else []) (if c then requestEvent .notice x q else q) := by
  split
  · exact h.ask station x
  · rw [List.append_nil]
    exact h

theorem NoticesAsked.startDrive {l : List (List Byte)} (h : NoticesAsked j l q) (present : Bool) :
    NoticesAsked j l (Machine.whenPresent present startDrive q) := by
  cases present with
  | true => exact h.keep rfl rfl rfl
  | false => exact h

theorem NoticesAsked.startArm {l : List (List Byte)} (h : NoticesAsked j l q) (station : j.loader.station = .joining) (u : ArmUnit) :
    NoticesAsked j (l ++ if (startedArm q u).cause = .notStowed
      then [spelled [6, unitCode u, positionCode (armParams q u).position]] else []) (startArm u q) := by
  obtain ⟨c, hc⟩ : ∃ c, c = setArmClaim u (q.withArm u { State.resetArm with
    state := (stowCheck q u).1
    cause := (stowCheck q u).2
    levels := holdLevels q.safe.hold (armParams q u)
    deflectOff := some (ms q)
    due := some (ms q + 20) }) := ⟨_, rfl⟩
  have claimed : NoticesAsked j l c := by
    refine h.keep ?_ ?_ ?_
    · rw [hc, setArmClaim, State.withArm_loader, State.withArm_loader]
    · rw [hc, setArmClaim, State.withArm_micros, State.withArm_micros]
    · rw [hc, setArmClaim, State.withArm_pub, State.withArm_pub]
  have starts : Machine.startArm u q = if (stowCheck q u).2 = .notStowed
      then requestEvent .notice (spelled [6, unitCode u, positionCode (armParams q u).position]) c else c := by
    rw [hc]
    rfl
  rw [starts]
  exact claimed.askIf station ..

theorem NoticesAsked.startWater {l : List (List Byte)} (h : NoticesAsked j l q) (station : j.loader.station = .joining) :
    NoticesAsked j (l ++ if (startedWater q).tankBelow = true then [spelled [0, tankValue q.inputs / 4, 0]] else [])
      (startWater q) := by
  have claimed : NoticesAsked j l (q.withWater (startedWater q)) := h.keep rfl rfl rfl
  have starts : Machine.startWater q = if ((startedWater q).tankBelow && !false) = true
      then requestEvent .notice (spelled [0, tankValue q.inputs / 4, 0]) (q.withWater (startedWater q))
      else q.withWater (startedWater q) := rfl
  rw [Bool.not_false, Bool.and_true] at starts
  rw [starts]
  exact claimed.askIf station ..

theorem NoticesAsked.startConsole {l : List (List Byte)} (h : NoticesAsked j l q) (station : j.loader.station = .joining) :
    NoticesAsked j (l ++ if pedalOut q.inputs = true then [spelled [1, pedalReading q.inputs / 4, 0]] else [])
      (startConsole q) := by
  have claimed : NoticesAsked j l (q.withConsole (startedConsole q)) := h.keep rfl rfl rfl
  have starts : Machine.startConsole q = if pedalOut q.inputs = true
      then requestEvent .notice (spelled [1, pedalReading q.inputs / 4, 0]) (q.withConsole (startedConsole q))
      else q.withConsole (startedConsole q) := rfl
  rw [starts]
  exact claimed.askIf station ..

/-- The notices of all the starts, in the order in which the duties start (R59, R201). -/
theorem startDuties_notices (station : j.loader.station = .joining) : NoticesAsked j ([]
    ++ (if armPresent j .a = true ∧ (startedArm j .a).cause = .notStowed
      then [spelled [6, 0, positionCode (armParams j .a).position]] else [])
    ++ (if armPresent j .b = true ∧ (startedArm j .b).cause = .notStowed
      then [spelled [6, 1, positionCode (armParams j .b).position]] else [])
    ++ (if j.duties.water = true ∧ (startedWater j).tankBelow = true then [spelled [0, tankValue j.inputs / 4, 0]] else [])
    ++ (if j.duties.console = true ∧ pedalOut j.inputs = true then [spelled [1, pedalReading j.inputs / 4, 0]] else []))
    (startDuties j) := by
  have read0 := sameReadings_drive j
  have read1 := read0.arm .a j.duties.armA
  have read2 := read1.arm .b j.duties.armB
  have read3 := read2.water j.duties.water
  have asked0 := (NoticesAsked.none j).startDrive j.duties.drive
  have armA := asked0.startArm station .a
  rw [read0.startedArm_eq, armParams_congr read0.params] at armA
  have asked1 := asked0.whenPresent (present := j.duties.armA) armA
  have armB := asked1.startArm station .b
  rw [read1.startedArm_eq, armParams_congr read1.params] at armB
  have asked2 := asked1.whenPresent (present := j.duties.armB) armB
  have water := asked2.startWater station
  rw [read2.startedWater_eq, read2.inputs] at water
  have asked3 := asked2.whenPresent (present := j.duties.water) water
  have console := asked3.startConsole station
  rw [read3.inputs] at console
  exact asked3.whenPresent console

/-! ## The inputs at the entry (R110, R117, R118, R121) -/

section
variable (m : Image) (first : Vector Permille 4) (s : State)

theorem joined_pulse (i : Fin 6) : (joined m first s).inputs.pulse[i] = ⟨imgPulseFn m i, .stopped, 0, none, none, 0⟩ :=
  Vector.getElem_ofFn i.isLt

theorem joined_switch (i : Fin 8) : (joined m first s).inputs.switches[i] = ⟨imgSwitchFn m i, false, 0, s.micros / 1000 + 1⟩ :=
  Vector.getElem_ofFn i.isLt

theorem joined_analog (i : Fin 4) :
    (joined m first s).inputs.analog[i] = firstConversion (imgAnalogFn m i) (s.micros / 1000) first[i].val :=
  Vector.getElem_ofFn i.isLt

end

theorem firstConversion_fn (f : AnalogFn) (now reading : Nat) : (firstConversion f now reading).fn = f := by
  unfold firstConversion
  dsimp only
  split
  · rfl
  · exact (convert_reading ..).1

theorem firstConversion_used {f : AnalogFn} (used : f ≠ .unused) (now reading : Nat) :
    (firstConversion f now reading).reading = reading
      ∧ (firstConversion f now reading).inRange = decide (20 ≤ reading ∧ reading ≤ 980) := by
  have starts : firstConversion f now reading = convert reading ⟨f, 0, true, 0, none, now + 1⟩ := if_neg used
  rw [starts]
  refine ⟨(convert_reading ..).2, ?_⟩
  by_cases good : 20 ≤ reading ∧ reading ≤ 980
  · rw [convert_of_good good, decide_eq_true good]
    rfl
  · rw [convert_of_bad good, decide_eq_false good]

/-- The PEDAL at the entry: the first input assigned to it, with its first conversion (R172). -/
theorem joined_pedal (m : Image) (first : Vector Permille 4) (s : State) :
    match (List.finRange 4).find? fun i => imgAnalogFn m i == .pedal with
    | some i => pedalOut (joined m first s).inputs = !decide (20 ≤ first[i].val ∧ first[i].val ≤ 980)
        ∧ pedalReading (joined m first s).inputs = first[i].val
    | none => pedalOut (joined m first s).inputs = false := by
  have analog : analogOf (joined m first s).inputs .pedal = ((List.finRange 4).find? fun i => imgAnalogFn m i == .pedal).map
      fun i => firstConversion (imgAnalogFn m i) (s.micros / 1000) first[i].val := by
    simp only [analogOf, joined_analog, firstConversion_fn]
  cases found : (List.finRange 4).find? fun i => imgAnalogFn m i == .pedal with
  | none =>
    rw [found] at analog
    rw [pedalOut, analog]
    rfl
  | some i =>
    have pedal : imgAnalogFn m i = .pedal := eq_of_beq (List.find?_some (p := fun i => imgAnalogFn m i == .pedal) found)
    obtain ⟨reading, range⟩ := firstConversion_used (f := imgAnalogFn m i) (by rw [pedal]; decide) (s.micros / 1000) first[i].val
    rw [found] at analog
    dsimp only
    rw [pedalOut, pedalReading, analog, ← range]
    exact ⟨rfl, reading⟩

/-! ## The blocks at their start (R106, R124, R145, R154, R155, R167) -/

/-- No channel has been lost before the drive starts, so it asks for no ceiling (R66, R106). -/
theorem startDrive_claim (stopped : ∀ i : Fin 6, j.inputs.pulse[i].state = .stopped) :
    (startDrive j).drive.claim = some (formClaim j freeClaim) := by
  have sound : fnState j .wheel ≠ some .lost := by
    unfold fnState
    cases channelOf j.inputs .wheel with
    | none => exact fun h => by cases h
    | some i =>
      intro lost
      have state : j.inputs.pulse[i].state = .lost := Option.some.inj lost
      rw [stopped i] at state
      cases state
  refine congrArg (fun c => some (formClaim j c)) ?_
  refine (if_neg sound).trans (if_neg fun h => ?_)
  cases h

theorem startedArm_claim (j : State) (u : ArmUnit) : (startedArm j u).claim = some (if isSafe j = true then ⟨0, .stop, .stationSafe⟩
    else if (startedArm j u).state = .fault then ⟨0, .prompt, .armFault⟩ else ⟨6000, .normal, .none⟩) := by
  refine congrArg some ?_
  unfold formClaim
  split
  · rfl
  · rw [startedArm_state]
    unfold armOwnClaim
    dsimp only
    rcases stowCheck_cases j u with h | h | h <;> rw [h] <;> rfl

/-- The stow check of a start (R124). -/
theorem startedArm_checked (j : State) (u : ArmUnit) :
    (angleInRange j.inputs u = false → (startedArm j u).state = .fault ∧ (startedArm j u).cause = .angleRange)
      ∧ (angleInRange j.inputs u = true → (armParams j u).stowLow ≤ angleValue j.inputs u →
          angleValue j.inputs u ≤ (armParams j u).stowHigh → (startedArm j u).state = .stowed ∧ (startedArm j u).cause = .none)
      ∧ (angleInRange j.inputs u = true →
          angleValue j.inputs u < (armParams j u).stowLow ∨ (armParams j u).stowHigh < angleValue j.inputs u →
          (startedArm j u).state = .fault ∧ (startedArm j u).cause = .notStowed) := by
  rw [startedArm_state, startedArm_cause]
  refine ⟨fun out => ?_, fun inRange low high => ?_, fun inRange outside => ?_⟩
  · have check : stowCheck j u = (.fault, .angleRange) := if_neg (by rw [out]; exact Bool.false_ne_true)
    rw [check]
    exact ⟨rfl, rfl⟩
  · have check : stowCheck j u = (.stowed, .none) := (if_pos inRange).trans (if_pos ⟨low, high⟩)
    rw [check]
    exact ⟨rfl, rfl⟩
  · have check : stowCheck j u = (.fault, .notStowed) := (if_pos inRange).trans (if_neg fun within => by
      rcases outside with below | above
      · exact Nat.not_lt.2 within.1 below
      · exact Nat.not_lt.2 within.2 above)
    rw [check]
    exact ⟨rfl, rfl⟩

theorem startedWater_claim (j : State) : (startedWater j).claim = some (if isSafe j = true then ⟨0, .stop, .stationSafe⟩
    else if (startedWater j).dry = true ∧ j.params.water.dryForbidden = true then ⟨0, .prompt, .tankEmpty⟩
    else ⟨6000, .normal, .none⟩) := by
  refine congrArg some ?_
  unfold formClaim
  split
  · rfl
  · have forbids : ((startedWater j).dry && j.params.water.dryForbidden) = true
        ↔ (startedWater j).dry = true ∧ j.params.water.dryForbidden = true := Bool.and_eq_true_iff
    refine (if_neg (by exact Bool.false_ne_true)).trans ?_
    by_cases dry : (startedWater j).dry = true ∧ j.params.water.dryForbidden = true
    · exact (if_pos (forbids.2 dry)).trans (if_pos dry).symm
    · exact (if_neg (mt forbids.1 dry)).trans (if_neg dry).symm

/-! ## The notices of an entry, as O6 lists them -/

/-- The NOTICE of an arm outside its stow band (R124). -/
def joiningStowNotice (t : State) (u : ArmUnit) (number : Nat) : List (List Byte) :=
  if armPresent t u = true ∧ (t.arm u).cause = .notStowed then [spelled [6, number, positionCode (armParams t u).position]] else []

/-- The NOTICE of a low tank (R155). -/
def joiningTankNotice (t : State) : List (List Byte) :=
  if t.duties.water = true ∧ t.water.tankBelow = true then [spelled [0, tankValue t.inputs / 4, 0]] else []

/-- The NOTICE of a pedal out of range (R172). -/
def joiningPedalNotice (carried : Bool) (image : Vector Byte 1024) (first : Vector Permille 4) : List (List Byte) :=
  match carried, (List.finRange 4).find? fun i => imgAnalogFn image i == .pedal with
  | true, some i => if 20 ≤ first[i].val ∧ first[i].val ≤ 980 then [] else [spelled [1, first[i].val / 4, 0]]
  | true, none | false, _ => []

theorem joiningPedalNotice_absent (image : Vector Byte 1024) (first : Vector Permille 4) : joiningPedalNotice false image first = [] := by
  unfold joiningPedalNotice
  cases (List.finRange 4).find? fun i => imgAnalogFn image i == .pedal <;> rfl

/-- The pedal's notice is asked for by what the readings of the entry say. -/
theorem joiningPedalNotice_eq (image : Vector Byte 1024) (first : Vector Permille 4) (s : State) :
    joiningPedalNotice true image first = if pedalOut (joined image first s).inputs = true
      then [spelled [1, pedalReading (joined image first s).inputs / 4, 0]] else [] := by
  have pedal := joined_pedal image first s
  unfold joiningPedalNotice
  cases found : (List.finRange 4).find? fun i => imgAnalogFn image i == .pedal with
  | none =>
    rw [found] at pedal
    exact (if_neg (ne_true_of_eq_false pedal)).symm
  | some i =>
    rw [found] at pedal
    obtain ⟨out, reading⟩ := pedal
    rw [out, reading]
    by_cases good : 20 ≤ first[i].val ∧ first[i].val ≤ 980
    · rw [decide_eq_true good]
      exact if_pos good
    · rw [decide_eq_false good]
      exact if_neg good

theorem length_ite_singleton_le {α : Type} (c : Prop) [Decidable c] (x : α) : (if c then [x] else []).length ≤ 1 := by
  split
  · exact Nat.le_refl 1
  · exact Nat.zero_le 1

theorem joiningPedalNotice_length_le (carried : Bool) (image : Vector Byte 1024) (first : Vector Permille 4) :
    (joiningPedalNotice carried image first).length ≤ 1 := by
  cases carried with
  | true =>
    rw [joiningPedalNotice_eq image first State.reset]
    exact length_ite_singleton_le ..
  | false =>
    rw [joiningPedalNotice_absent]
    exact Nat.zero_le 1

theorem joiningStowNotice_startDuties (j : State) (u : ArmUnit) (number : Nat) : joiningStowNotice (startDuties j) u number
    = if armPresent j u = true ∧ (startedArm j u).cause = .notStowed
      then [spelled [6, number, positionCode (armParams j u).position]] else [] := by
  have frame : KeepsAllButDuties j (startDuties j) := (startDuties_dutyMoves j).frame
  have carries : armPresent (startDuties j) u = armPresent j u := by
    unfold armPresent
    rw [frame.duties]
  rw [joiningStowNotice, carries, startDuties_arm, armParams_congr frame.params]
  by_cases carried : armPresent j u = true
  · rw [if_pos carried]
  · rw [if_neg fun asks => carried asks.1, if_neg fun asks => carried asks.1]

theorem joiningTankNotice_startDuties (j : State) : joiningTankNotice (startDuties j)
    = if j.duties.water = true ∧ (startedWater j).tankBelow = true then [spelled [0, tankValue j.inputs / 4, 0]] else [] := by
  have frame : KeepsAllButDuties j (startDuties j) := (startDuties_dutyMoves j).frame
  rw [joiningTankNotice, frame.duties, frame.inputs, startDuties_water]
  by_cases carried : j.duties.water = true
  · rw [if_pos carried]
  · rw [if_neg fun asks => carried asks.1, if_neg fun asks => carried asks.1]

theorem joiningPedalNotice_joined (carried : Bool) (image : Vector Byte 1024) (first : Vector Permille 4) (s : State) :
    joiningPedalNotice carried image first = if carried = true ∧ pedalOut (joined image first s).inputs = true
      then [spelled [1, pedalReading (joined image first s).inputs / 4, 0]] else [] := by
  cases carried with
  | true =>
    rw [joiningPedalNotice_eq image first s]
    simp only [true_and]
  | false => rw [joiningPedalNotice_absent, if_neg fun asks => Bool.false_ne_true asks.1]

/-- The notices of an entry to JOINING, as O6 lists them (R59, R124, R155, R172). -/
def joiningNotices (t : State) (image : Vector Byte 1024) (first : Vector Permille 4) : List (List Byte) :=
  joiningStowNotice t .a 0 ++ joiningStowNotice t .b 1 ++ joiningTankNotice t ++ joiningPedalNotice t.duties.console image first

theorem joiningNotices_length_le (t : State) (image : Vector Byte 1024) (first : Vector Permille 4) :
    (joiningNotices t image first).length ≤ 4 := by
  have stowA : (joiningStowNotice t .a 0).length ≤ 1 := length_ite_singleton_le ..
  have stowB : (joiningStowNotice t .b 1).length ≤ 1 := length_ite_singleton_le ..
  have tank : (joiningTankNotice t).length ≤ 1 := length_ite_singleton_le ..
  have pedal := joiningPedalNotice_length_le t.duties.console image first
  rw [joiningNotices, List.length_append, List.length_append, List.length_append]
  omega

theorem startDuties_joined_notices (image : Vector Byte 1024) (first : Vector Permille 4) (s : State) :
    NoticesAsked (joined image first s) (joiningNotices (startDuties (joined image first s)) image first)
      (startDuties (joined image first s)) := by
  have frame := (startDuties_dutyMoves (joined image first s)).frame
  rw [joiningNotices, joiningStowNotice_startDuties, joiningStowNotice_startDuties, joiningTankNotice_startDuties,
    joiningPedalNotice_joined (s := s), frame.duties]
  exact startDuties_notices (joined_station ..)

/-- Settles O6: the entry is `startDuties` of the station `joined`, block by block, and its notices are `startDuties_notices`. -/
theorem goodImageEntersJoining : Obligations.GoodImageEntersJoining := by
  intro image first s configuring running accepted
  obtain ⟨j, hj⟩ : ∃ j, j = joined image first s := ⟨_, rfl⟩
  have runs : exec (.imageReadComplete image first) s = .next (startDuties j) := by
    rw [exec_imageReadComplete_of_good (reading_of_configuring configuring running) accepted, enterJoining_eq, hj]
  have frame : KeepsAllButDuties j (startDuties j) := (startDuties_dutyMoves j).frame
  have station : j.loader.station = .joining := by rw [hj, joined_station]
  have micros : j.micros = s.micros := by rw [hj]; rfl
  have now : ms j = s.micros / 1000 := congrArg (· / 1000) micros
  have safeSame : isSafe j = isSafe s := by rw [hj, joined_isSafe]
  have pub : j.pub = s.pub := by rw [hj, joined_pub]
  have duties : j.duties = imgDuties image := by rw [hj, joined_duties]
  have params : j.params = imgParams image := by rw [hj, joined_params]
  have address : j.loader.address = s.loader.address := by rw [hj, joined_address]
  have armSame (u : ArmUnit) : armPresent (startDuties j) u = armPresent j u := by unfold armPresent; rw [frame.duties]
  have asked := startDuties_joined_notices image first s
  rw [← hj] at asked
  have paramsSame (u : ArmUnit) : armParams (startDuties j) u = armParams j u := armParams_congr frame.params u
  have arm (u : ArmUnit) (p : armPresent (startDuties j) u = true) : (startDuties j).arm u = startedArm j u := by
    rw [startDuties_arm, if_pos ((armSame u).symm.trans p)]
  refine ⟨_, runs, frame.held.trans (by rw [hj]; rfl), frame.micros.trans micros, frame.pending.trans (by rw [hj]; rfl), ?list, ?loader,
    ?link, ?picture, ?safe, frame.duties.trans duties, frame.params.trans params, ?distance, ?remainder, fun i => ?pulse, fun i => ?switch,
    fun i => ?analog, fun carried => ?drive, fun u p => ?arm, fun carried => ?water, fun carried => ?console, fun none => ?deferred⟩
  case list =>
    rw [asked.list, pub]
  case loader =>
    rw [frame.loader, hj, ← imgCrc_eq]
    rfl
  case link =>
    rw [frame.link, hj, joined_link, openLink, imgByte_eq image (by decide)]
  case picture => rw [frame.picture, hj, joined_picture]
  case safe => rw [startDuties_safe, hj, joined_safe]
  case distance => rw [frame.inputs, hj]; rfl
  case remainder => rw [frame.inputs, hj]; rfl
  case pulse => rw [frame.inputs, hj, joined_pulse]
  case switch =>
    rw [frame.inputs, hj, joined_switch]
    exact ⟨rfl, rfl, rfl⟩
  case analog =>
    rw [frame.inputs, hj, joined_analog]
    exact ⟨firstConversion_fn .., fun used => firstConversion_used used ..⟩
  case drive =>
    have drive : (startDuties j).drive = (startDrive j).drive := by rw [startDuties_drive, if_pos (frame.duties ▸ carried)]
    have claim := startDrive_claim (j := j) fun i => by rw [hj, joined_pulse]
    rw [drive, claim, ← safeSame, ← now]
    exact ⟨rfl, rfl, rfl, rfl, rfl⟩
  case arm =>
    rw [arm u p, frame.inputs, paramsSame, startDuties_safe, startedArm_claim, ← safeSame, ← now]
    exact ⟨rfl, rfl, rfl, rfl, rfl, rfl, startedArm_checked j u⟩
  case water =>
    have water : (startDuties j).water = startedWater j := by rw [startDuties_water, if_pos (frame.duties ▸ carried)]
    rw [water, frame.inputs, frame.params, startedWater_claim, ← safeSame, ← now]
    exact ⟨rfl, rfl, rfl, rfl, rfl⟩
  case console =>
    have console : (startDuties j).console = startedConsole j := by rw [startDuties_console, if_pos (frame.duties ▸ carried)]
    rw [console, ← safeSame, ← now]
    exact ⟨rfl, rfl, rfl, rfl, rfl, rfl⟩
  case deferred =>
    have numbered := (asked.deferred (by rw [pub]; exact none) (joiningNotices_length_le ..)).1
    have built (x : List Byte) : builtEvent j .notice x = builtEvent s .notice x := by
      rw [builtEvent, builtEvent, pub, address, micros]
    intro stow tank pedal
    rw [numbered, noticesOf, pub]
    simp only [built]
    rfl

end

end Sys2Proof.Machine
end
